-- ==== Sys2Proof/Word.lean ====
section
/-! DEFINITION. The word types of the pngpeg decode block (spec 10_state.md R21, R30). -/

namespace Sys2Proof

/-- A 32-bit register of the register file (R21, R37). -/
abbrev Word := BitVec 32

/-- A cell of `IBUF`, `OBUF` or `RBUF` (R30, R31, R32). -/
abbrev Byte := BitVec 8

/-- A cell of `LENS`: a code length 0 to 15 (R33). -/
abbrev Nibble := BitVec 4

end Sys2Proof
end

