-- ==== Sys2Proof/Config.lean ====
section
/-! DEFINITION. What the spec leaves to an implementation: the four parameters of 00_scope.md R7, and the free
values that stand for everything the spec calls "unspecified" (93_implementation_defined.md U1 to U5). -/

namespace Sys2Proof

/-- The parameters of rule R7, arguments of the model. They are carried in `State.params`, which no instruction
writes, so that a statement about every state is a statement about every parameter value. -/
structure Params where
  /-- `IBUF_CAP`, capacity of the input buffer in bytes. -/
  ibufCap : Nat
  /-- `OBUF_CAP`, capacity of the output buffer in bytes. -/
  obufCap : Nat
  /-- `RBUF_CAP`, capacity of the reconstructed-scanline buffer in bytes. -/
  rbufCap : Nat
  /-- `P_STRICT_NLEN`: true raises `StoredLenMismatch`, false sets `WARN.NLEN` (R232). -/
  strictNlen : Bool
  deriving DecidableEq, Repr

/-- The ranges rule R7 gives the parameters. -/
def Params.wf (p : Params) : Bool :=
  decide (1 ≤ p.ibufCap ∧ p.ibufCap ≤ 2 ^ 29 - 1 ∧
    1 ≤ p.obufCap ∧ p.obufCap ≤ 2 ^ 32 - 1 ∧
    1 ≤ p.rbufCap ∧ p.rbufCap ≤ 2 ^ 32 - 1)

/-- The parameters a machine after reset has: `P_STRICT_NLEN = 0`, the value the spec takes (R7, R232), and the
largest capacities R7 allows.
DESIGN CHOICE (log entry 1): the spec leaves the capacities open and no rule depends on a value. -/
def Params.initial : Params where
  ibufCap := 2 ^ 29 - 1
  obufCap := 2 ^ 32 - 1
  rbufCap := 2 ^ 32 - 1
  strictNlen := false

/-- FREE VALUE (log entry 2): the content of cell `addr` of a memory of `w`-bit cells that the spec calls
unspecified. `gen` names the event that left it so (hardware reset, a failed command, any `INFLATE` for `LENS`).
It has no body: no proof can see a value of it (R47, R421, R451; U1, U4, U5). -/
opaque Config.freeCell (w gen addr : Nat) : BitVec w

/-- FREE VALUE (log entry 2): the value of a `w`-bit register that a rule calls unspecified; `tag` is the
counter's value at the event (R421; U1 to U3). It has no body. -/
opaque Config.freeReg (w tag : Nat) : BitVec w

end Sys2Proof
end

