-- ==== Sys2Proof/Syntax.lean ====
section
/-! DEFINITION. The instructions of the block, one constructor per row of spec/opcode_table.json (R3, R122). -/

namespace Sys2Proof

/-- The six formats of the opcode table (R122). The grammar position, not the bits, says which one is current
(R116); the machine holds the current one in `Work.level`, where `cmd` means that no command is running and the
next instruction is a host command. -/
inductive Format where
  /-- `CMD`: the 8-bit opcode written to `CMD` (R100). -/
  | cmd
  /-- `BLKHDR`: the 3-bit number `BFINAL + 2*BTYPE` (R104). -/
  | blkhdr
  /-- `LLSYM`: the 9-bit literal/length symbol number (R109). -/
  | llsym
  /-- `DSYM`: the 5-bit distance symbol number (R112). -/
  | dsym
  /-- `CLSYM`: the 5-bit code-length symbol number (R108). -/
  | clsym
  /-- `FTAG`: the 8-bit filter tag of a scanline (R117). -/
  | ftag
  deriving DecidableEq, Repr

/-- The instructions. Operands of a host command stand in registers and memories (R100) and extra fields of a
symbol follow it in the stream (R108, R110), so a constructor carries only what its own table word leaves open. -/
inductive Instr where
  /-- `NOP`, opcode 0x00 (R384). -/
  | nop
  /-- `RESET`, opcode 0x01 (R385). -/
  | reset
  /-- `CLR`, opcode 0x02 (R386). -/
  | clr
  /-- `BR_INIT`, opcode 0x10 (R387). -/
  | brInit
  /-- `BR_READ`, opcode 0x11 (R388). -/
  | brRead
  /-- `BR_READ_REV`, opcode 0x12 (R389). -/
  | brReadRev
  /-- `BR_REMAINING`, opcode 0x13 (R390). -/
  | brRemaining
  /-- `HT_BUILD`, opcode 0x20 (R391). -/
  | htBuild
  /-- `HT_DECODE`, opcode 0x21 (R392). -/
  | htDecode
  /-- `INFLATE`, opcode 0x30 (R393). -/
  | inflate
  /-- `OB_SETLEN`, opcode 0x31 (R394). -/
  | obSetlen
  /-- `CRC_COMPUTE`, opcode 0x40 (R395). -/
  | crcCompute
  /-- `CRC_CHECK`, opcode 0x41 (R396). -/
  | crcCheck
  /-- `DEFILTER`, opcode 0x50 (R397). -/
  | defilter
  /-- Any other opcode: raises `BadCommand` (R382). -/
  | cmdIllegal (op : BitVec 8)
  /-- Stored DEFLATE block, `BTYPE = 0` (R230 to R234). -/
  | blkStored (bfinal : Bool)
  /-- Fixed-Huffman block, `BTYPE = 1` (R235). -/
  | blkFixed (bfinal : Bool)
  /-- Dynamic-Huffman block, `BTYPE = 2` (R240 to R250). -/
  | blkDynamic (bfinal : Bool)
  /-- Reserved block type, `BTYPE = 3`: raises `ReservedBlockType` (R227). -/
  | blkReserved (bfinal : Bool)
  /-- Literal byte, literal/length symbols 0 to 255 (R251). -/
  | lit (v : BitVec 8)
  /-- End of block, literal/length symbol 256 (R252). -/
  | eob
  /-- Length symbol 257: lengths 3 to 3 (R260). -/
  | len257
  /-- Length symbol 258: lengths 4 to 4 (R261). -/
  | len258
  /-- Length symbol 259: lengths 5 to 5 (R262). -/
  | len259
  /-- Length symbol 260: lengths 6 to 6 (R263). -/
  | len260
  /-- Length symbol 261: lengths 7 to 7 (R264). -/
  | len261
  /-- Length symbol 262: lengths 8 to 8 (R265). -/
  | len262
  /-- Length symbol 263: lengths 9 to 9 (R266). -/
  | len263
  /-- Length symbol 264: lengths 10 to 10 (R267). -/
  | len264
  /-- Length symbol 265: lengths 11 to 12 (R268). -/
  | len265
  /-- Length symbol 266: lengths 13 to 14 (R269). -/
  | len266
  /-- Length symbol 267: lengths 15 to 16 (R270). -/
  | len267
  /-- Length symbol 268: lengths 17 to 18 (R271). -/
  | len268
  /-- Length symbol 269: lengths 19 to 22 (R272). -/
  | len269
  /-- Length symbol 270: lengths 23 to 26 (R273). -/
  | len270
  /-- Length symbol 271: lengths 27 to 30 (R274). -/
  | len271
  /-- Length symbol 272: lengths 31 to 34 (R275). -/
  | len272
  /-- Length symbol 273: lengths 35 to 42 (R276). -/
  | len273
  /-- Length symbol 274: lengths 43 to 50 (R277). -/
  | len274
  /-- Length symbol 275: lengths 51 to 58 (R278). -/
  | len275
  /-- Length symbol 276: lengths 59 to 66 (R279). -/
  | len276
  /-- Length symbol 277: lengths 67 to 82 (R280). -/
  | len277
  /-- Length symbol 278: lengths 83 to 98 (R281). -/
  | len278
  /-- Length symbol 279: lengths 99 to 114 (R282). -/
  | len279
  /-- Length symbol 280: lengths 115 to 130 (R283). -/
  | len280
  /-- Length symbol 281: lengths 131 to 162 (R284). -/
  | len281
  /-- Length symbol 282: lengths 163 to 194 (R285). -/
  | len282
  /-- Length symbol 283: lengths 195 to 226 (R286). -/
  | len283
  /-- Length symbol 284: lengths 227 to 258 (R287). -/
  | len284
  /-- Length symbol 285: lengths 258 to 258 (R288). -/
  | len285
  /-- Literal/length symbol 286: raises `InvalidSymbol` (R254). -/
  | llInvalid286
  /-- Literal/length symbol 287: raises `InvalidSymbol` (R254). -/
  | llInvalid287
  /-- Literal/length symbol numbers 288 to 511, which no table can produce (R122, R257). -/
  | llUnreachable (sym : BitVec 9)
  /-- Distance symbol 0: distances 1 to 1 (R290). -/
  | dist0
  /-- Distance symbol 1: distances 2 to 2 (R291). -/
  | dist1
  /-- Distance symbol 2: distances 3 to 3 (R292). -/
  | dist2
  /-- Distance symbol 3: distances 4 to 4 (R293). -/
  | dist3
  /-- Distance symbol 4: distances 5 to 6 (R294). -/
  | dist4
  /-- Distance symbol 5: distances 7 to 8 (R295). -/
  | dist5
  /-- Distance symbol 6: distances 9 to 12 (R296). -/
  | dist6
  /-- Distance symbol 7: distances 13 to 16 (R297). -/
  | dist7
  /-- Distance symbol 8: distances 17 to 24 (R298). -/
  | dist8
  /-- Distance symbol 9: distances 25 to 32 (R299). -/
  | dist9
  /-- Distance symbol 10: distances 33 to 48 (R300). -/
  | dist10
  /-- Distance symbol 11: distances 49 to 64 (R301). -/
  | dist11
  /-- Distance symbol 12: distances 65 to 96 (R302). -/
  | dist12
  /-- Distance symbol 13: distances 97 to 128 (R303). -/
  | dist13
  /-- Distance symbol 14: distances 129 to 192 (R304). -/
  | dist14
  /-- Distance symbol 15: distances 193 to 256 (R305). -/
  | dist15
  /-- Distance symbol 16: distances 257 to 384 (R306). -/
  | dist16
  /-- Distance symbol 17: distances 385 to 512 (R307). -/
  | dist17
  /-- Distance symbol 18: distances 513 to 768 (R308). -/
  | dist18
  /-- Distance symbol 19: distances 769 to 1024 (R309). -/
  | dist19
  /-- Distance symbol 20: distances 1025 to 1536 (R310). -/
  | dist20
  /-- Distance symbol 21: distances 1537 to 2048 (R311). -/
  | dist21
  /-- Distance symbol 22: distances 2049 to 3072 (R312). -/
  | dist22
  /-- Distance symbol 23: distances 3073 to 4096 (R313). -/
  | dist23
  /-- Distance symbol 24: distances 4097 to 6144 (R314). -/
  | dist24
  /-- Distance symbol 25: distances 6145 to 8192 (R315). -/
  | dist25
  /-- Distance symbol 26: distances 8193 to 12288 (R316). -/
  | dist26
  /-- Distance symbol 27: distances 12289 to 16384 (R317). -/
  | dist27
  /-- Distance symbol 28: distances 16385 to 24576 (R318). -/
  | dist28
  /-- Distance symbol 29: distances 24577 to 32768 (R319). -/
  | dist29
  /-- Distance symbols 30 (`b0` false) and 31 (`b0` true): raise `InvalidSymbol` (R256). -/
  | dInvalid (b0 : Bool)
  /-- Code-length symbols 0 to 15: one code length (R245). -/
  | clLen (v : BitVec 4)
  /-- Code-length symbol 16: repeat the previous length (R246). -/
  | clRep
  /-- Code-length symbol 17: 3 to 10 zero lengths (R247). -/
  | clZrep3
  /-- Code-length symbol 18: 11 to 138 zero lengths (R248). -/
  | clZrep11
  /-- Code-length symbol numbers 19 to 31, which no table can produce (R122, R249). -/
  | clUnreachable (sym : BitVec 5)
  /-- Filter tag 0 (R364). -/
  | ftNone
  /-- Filter tag 1 (R365). -/
  | ftSub
  /-- Filter tag 2 (R366). -/
  | ftUp
  /-- Filter tag 3 (R367). -/
  | ftAverage
  /-- Filter tag 4 (R368). -/
  | ftPaeth
  /-- Filter tags 5 to 255: raise `InvalidFilterType` (R369). -/
  | ftIllegal (tag : BitVec 8)
  deriving DecidableEq, Repr

end Sys2Proof
end

