-- ==== Sys2Proof/WellFormed.lean ====
section
/-! DEFINITION. When an instruction is one the table can name: the catch-all rows hold only the numbers that no
earlier row of their format selects (R122: the first matching row wins). -/

namespace Sys2Proof

/-- The fourteen defined opcodes (R100, R382). -/
def definedOpcodes : List Nat :=
  [0x00, 0x01, 0x02, 0x10, 0x11, 0x12, 0x13, 0x20, 0x21, 0x30, 0x31, 0x40, 0x41, 0x50]

/-- Well-formedness of an instruction. -/
def Instr.wf : Instr → Bool
  | .cmdIllegal op => !definedOpcodes.contains op.toNat
  | .llUnreachable sym => decide (288 ≤ sym.toNat)
  | .clUnreachable sym => decide (19 ≤ sym.toNat)
  | .ftIllegal tag => decide (5 ≤ tag.toNat)
  | _ => true

end Sys2Proof
end

