-- ==== Sys2Proof/Decode.lean ====
section
/-! DEFINITION. Decoding the words of spec/opcode_table.json and encoding them again (R100, R104, R108, R109, R112,
R117, R122), and the stream codes of the fixed tables (R114, R115). -/

namespace Sys2Proof

/-- Why a word is no instruction word: it does not fit the format's width. Every word that fits decodes, since
each format ends with a catch-all row or is complete (R122). -/
inductive DecodeError where
  /-- `w` needs more than the format's bits. -/
  | tooWide (f : Format) (w : Nat)
  deriving DecidableEq, Repr

/-- The number of bits of a format's word (R122). -/
def Format.bits : Format → Nat
  | .cmd => 8
  | .blkhdr => 3
  | .llsym => 9
  | .dsym => 5
  | .clsym => 5
  | .ftag => 8

/-- The command of an opcode byte (R100); every other value is `CMD_ILLEGAL` (R382). -/
def decodeCommand (op : BitVec 8) : Instr :=
  match op.toNat with
  | 0x00 => .nop
  | 0x01 => .reset
  | 0x02 => .clr
  | 0x10 => .brInit
  | 0x11 => .brRead
  | 0x12 => .brReadRev
  | 0x13 => .brRemaining
  | 0x20 => .htBuild
  | 0x21 => .htDecode
  | 0x30 => .inflate
  | 0x31 => .obSetlen
  | 0x40 => .crcCompute
  | 0x41 => .crcCheck
  | 0x50 => .defilter
  | _ => .cmdIllegal op

/-- The DEFLATE block of a header number `BFINAL + 2*BTYPE` (R104). -/
def decodeBlockHeader (h : BitVec 3) : Instr :=
  match h.toNat / 2 with
  | 0 => .blkStored (h.getLsbD 0)
  | 1 => .blkFixed (h.getLsbD 0)
  | 2 => .blkDynamic (h.getLsbD 0)
  | _ => .blkReserved (h.getLsbD 0)

/-- The literal/length symbols 256 and above (R109). -/
def decodeLengthSymbol (sym : BitVec 9) : Instr :=
  match sym.toNat with
  | 256 => .eob
  | 257 => .len257
  | 258 => .len258
  | 259 => .len259
  | 260 => .len260
  | 261 => .len261
  | 262 => .len262
  | 263 => .len263
  | 264 => .len264
  | 265 => .len265
  | 266 => .len266
  | 267 => .len267
  | 268 => .len268
  | 269 => .len269
  | 270 => .len270
  | 271 => .len271
  | 272 => .len272
  | 273 => .len273
  | 274 => .len274
  | 275 => .len275
  | 276 => .len276
  | 277 => .len277
  | 278 => .len278
  | 279 => .len279
  | 280 => .len280
  | 281 => .len281
  | 282 => .len282
  | 283 => .len283
  | 284 => .len284
  | 285 => .len285
  | 286 => .llInvalid286
  | 287 => .llInvalid287
  | _ => .llUnreachable sym

/-- The literal/length symbol of a number (R109): below 256 a literal byte. -/
def decodeLitLen (sym : BitVec 9) : Instr :=
  if sym.toNat < 256 then .lit (sym.setWidth 8) else decodeLengthSymbol sym

/-- The distance symbol of a number (R112, R256). -/
def decodeDistance (sym : BitVec 5) : Instr :=
  match sym.toNat with
  | 0 => .dist0
  | 1 => .dist1
  | 2 => .dist2
  | 3 => .dist3
  | 4 => .dist4
  | 5 => .dist5
  | 6 => .dist6
  | 7 => .dist7
  | 8 => .dist8
  | 9 => .dist9
  | 10 => .dist10
  | 11 => .dist11
  | 12 => .dist12
  | 13 => .dist13
  | 14 => .dist14
  | 15 => .dist15
  | 16 => .dist16
  | 17 => .dist17
  | 18 => .dist18
  | 19 => .dist19
  | 20 => .dist20
  | 21 => .dist21
  | 22 => .dist22
  | 23 => .dist23
  | 24 => .dist24
  | 25 => .dist25
  | 26 => .dist26
  | 27 => .dist27
  | 28 => .dist28
  | 29 => .dist29
  | _ => .dInvalid (sym.getLsbD 0)

/-- The code-length symbol of a number (R108). -/
def decodeCodeLength (sym : BitVec 5) : Instr :=
  if sym.toNat < 16 then .clLen (sym.setWidth 4)
  else match sym.toNat with
    | 16 => .clRep
    | 17 => .clZrep3
    | 18 => .clZrep11
    | _ => .clUnreachable sym

/-- The filter type of a scanline's tag (R117, R369). -/
def decodeFilterTag (tag : BitVec 8) : Instr :=
  match tag.toNat with
  | 0 => .ftNone
  | 1 => .ftSub
  | 2 => .ftUp
  | 3 => .ftAverage
  | 4 => .ftPaeth
  | _ => .ftIllegal tag

/-- The decoder: a word of a format to its instruction, total on every number. -/
def decode (f : Format) (w : Nat) : Except DecodeError Instr :=
  if w < 2 ^ f.bits then
    match f with
    | .cmd => .ok (decodeCommand (BitVec.ofNat 8 w))
    | .blkhdr => .ok (decodeBlockHeader (BitVec.ofNat 3 w))
    | .llsym => .ok (decodeLitLen (BitVec.ofNat 9 w))
    | .dsym => .ok (decodeDistance (BitVec.ofNat 5 w))
    | .clsym => .ok (decodeCodeLength (BitVec.ofNat 5 w))
    | .ftag => .ok (decodeFilterTag (BitVec.ofNat 8 w))
  else .error (.tooWide f w)

/-- The format an instruction belongs to (R122). -/
def Instr.format : Instr → Format
  | .nop => .cmd
  | .reset => .cmd
  | .clr => .cmd
  | .brInit => .cmd
  | .brRead => .cmd
  | .brReadRev => .cmd
  | .brRemaining => .cmd
  | .htBuild => .cmd
  | .htDecode => .cmd
  | .inflate => .cmd
  | .obSetlen => .cmd
  | .crcCompute => .cmd
  | .crcCheck => .cmd
  | .defilter => .cmd
  | .cmdIllegal _ => .cmd
  | .blkStored _ => .blkhdr
  | .blkFixed _ => .blkhdr
  | .blkDynamic _ => .blkhdr
  | .blkReserved _ => .blkhdr
  | .lit _ => .llsym
  | .eob => .llsym
  | .len257 => .llsym
  | .len258 => .llsym
  | .len259 => .llsym
  | .len260 => .llsym
  | .len261 => .llsym
  | .len262 => .llsym
  | .len263 => .llsym
  | .len264 => .llsym
  | .len265 => .llsym
  | .len266 => .llsym
  | .len267 => .llsym
  | .len268 => .llsym
  | .len269 => .llsym
  | .len270 => .llsym
  | .len271 => .llsym
  | .len272 => .llsym
  | .len273 => .llsym
  | .len274 => .llsym
  | .len275 => .llsym
  | .len276 => .llsym
  | .len277 => .llsym
  | .len278 => .llsym
  | .len279 => .llsym
  | .len280 => .llsym
  | .len281 => .llsym
  | .len282 => .llsym
  | .len283 => .llsym
  | .len284 => .llsym
  | .len285 => .llsym
  | .llInvalid286 => .llsym
  | .llInvalid287 => .llsym
  | .llUnreachable _ => .llsym
  | .dist0 => .dsym
  | .dist1 => .dsym
  | .dist2 => .dsym
  | .dist3 => .dsym
  | .dist4 => .dsym
  | .dist5 => .dsym
  | .dist6 => .dsym
  | .dist7 => .dsym
  | .dist8 => .dsym
  | .dist9 => .dsym
  | .dist10 => .dsym
  | .dist11 => .dsym
  | .dist12 => .dsym
  | .dist13 => .dsym
  | .dist14 => .dsym
  | .dist15 => .dsym
  | .dist16 => .dsym
  | .dist17 => .dsym
  | .dist18 => .dsym
  | .dist19 => .dsym
  | .dist20 => .dsym
  | .dist21 => .dsym
  | .dist22 => .dsym
  | .dist23 => .dsym
  | .dist24 => .dsym
  | .dist25 => .dsym
  | .dist26 => .dsym
  | .dist27 => .dsym
  | .dist28 => .dsym
  | .dist29 => .dsym
  | .dInvalid _ => .dsym
  | .clLen _ => .clsym
  | .clRep => .clsym
  | .clZrep3 => .clsym
  | .clZrep11 => .clsym
  | .clUnreachable _ => .clsym
  | .ftNone => .ftag
  | .ftSub => .ftag
  | .ftUp => .ftag
  | .ftAverage => .ftag
  | .ftPaeth => .ftag
  | .ftIllegal _ => .ftag

/-- The encoder: the table word of an instruction, in its own format (R122). -/
def encode : Instr → Nat
  | .nop => 0x00
  | .reset => 0x01
  | .clr => 0x02
  | .brInit => 0x10
  | .brRead => 0x11
  | .brReadRev => 0x12
  | .brRemaining => 0x13
  | .htBuild => 0x20
  | .htDecode => 0x21
  | .inflate => 0x30
  | .obSetlen => 0x31
  | .crcCompute => 0x40
  | .crcCheck => 0x41
  | .defilter => 0x50
  | .cmdIllegal op => op.toNat
  | .blkStored f => f.toNat
  | .blkFixed f => 2 + f.toNat
  | .blkDynamic f => 4 + f.toNat
  | .blkReserved f => 6 + f.toNat
  | .lit v => v.toNat
  | .eob => 0x100
  | .len257 => 0x101
  | .len258 => 0x102
  | .len259 => 0x103
  | .len260 => 0x104
  | .len261 => 0x105
  | .len262 => 0x106
  | .len263 => 0x107
  | .len264 => 0x108
  | .len265 => 0x109
  | .len266 => 0x10A
  | .len267 => 0x10B
  | .len268 => 0x10C
  | .len269 => 0x10D
  | .len270 => 0x10E
  | .len271 => 0x10F
  | .len272 => 0x110
  | .len273 => 0x111
  | .len274 => 0x112
  | .len275 => 0x113
  | .len276 => 0x114
  | .len277 => 0x115
  | .len278 => 0x116
  | .len279 => 0x117
  | .len280 => 0x118
  | .len281 => 0x119
  | .len282 => 0x11A
  | .len283 => 0x11B
  | .len284 => 0x11C
  | .len285 => 0x11D
  | .llInvalid286 => 0x11E
  | .llInvalid287 => 0x11F
  | .llUnreachable sym => sym.toNat
  | .dist0 => 0x00
  | .dist1 => 0x01
  | .dist2 => 0x02
  | .dist3 => 0x03
  | .dist4 => 0x04
  | .dist5 => 0x05
  | .dist6 => 0x06
  | .dist7 => 0x07
  | .dist8 => 0x08
  | .dist9 => 0x09
  | .dist10 => 0x0A
  | .dist11 => 0x0B
  | .dist12 => 0x0C
  | .dist13 => 0x0D
  | .dist14 => 0x0E
  | .dist15 => 0x0F
  | .dist16 => 0x10
  | .dist17 => 0x11
  | .dist18 => 0x12
  | .dist19 => 0x13
  | .dist20 => 0x14
  | .dist21 => 0x15
  | .dist22 => 0x16
  | .dist23 => 0x17
  | .dist24 => 0x18
  | .dist25 => 0x19
  | .dist26 => 0x1A
  | .dist27 => 0x1B
  | .dist28 => 0x1C
  | .dist29 => 0x1D
  | .dInvalid b0 => 30 + b0.toNat
  | .clLen v => v.toNat
  | .clRep => 0x10
  | .clZrep3 => 0x11
  | .clZrep11 => 0x12
  | .clUnreachable sym => sym.toNat
  | .ftNone => 0x00
  | .ftSub => 0x01
  | .ftUp => 0x02
  | .ftAverage => 0x03
  | .ftPaeth => 0x04
  | .ftIllegal tag => tag.toNat

/-- `n` stream bits of `v`, the most significant first: a code field, first-read bit on the left (R101). -/
def codeField : Nat → Nat → List Bool
  | 0, _ => []
  | n + 1, v => v.testBit n :: codeField n v

/-- `n` stream bits of `v`, the least significant first: an integer field (R101). -/
def integerField : Nat → Nat → List Bool
  | 0, _ => []
  | n + 1, v => v.testBit 0 :: integerField n (v / 2)

/-- The fixed literal/length code of symbol `s` as stream bits (R114). -/
def fixedCode (s : Nat) : List Bool :=
  if s ≤ 143 then codeField 8 (48 + s)
  else if s ≤ 255 then codeField 9 (400 + (s - 144))
  else if s ≤ 279 then codeField 7 (s - 256)
  else codeField 8 (192 + (s - 280))

/-- The stream bits of a block header (R104), first-read bit first. -/
def blockHeaderBits (i : Instr) : List Bool := integerField 3 (encode i)

/-- The stream bits of a distance symbol in a fixed block (R115). -/
def fixedDistanceBits (i : Instr) : List Bool := codeField 5 (encode i)

/-- The formats whose words fill `nbits` bits in whole bytes, or exactly, in the table's order. -/
def formatsOfWidth (nbits : Nat) : List Format :=
  if nbits = 8 then [.cmd, .blkhdr, .dsym, .clsym, .ftag]
  else if nbits = 16 ∨ nbits = 9 then [.llsym]
  else if nbits = 3 then [.blkhdr]
  else if nbits = 5 then [.dsym, .clsym]
  else []

/-- Whether a row other than a format's catch-all selects the word (R122). -/
def namedRow (f : Format) (w : Nat) : Bool :=
  match decode f w with
  | .ok (.cmdIllegal _) | .ok (.llUnreachable _) | .ok (.clUnreachable _) | .ok (.ftIllegal _) => false
  | .ok _ => true
  | .error _ => false

/-- The first format of a list one of whose named rows selects the word; with none, the first that can hold it. -/
def firstNamed (fs : List Format) (w : Nat) : Option Format :=
  (fs.find? (namedRow · w)).or (fs.find? fun f => decide (w < 2 ^ f.bits))

/-- The format in which a table word given without its format is read.
DESIGN CHOICE (log entry 3): a table word alone does not say its format (`0x02` is `CLR`, `BLK_FIXED`, `DIST2`,
`CL_LEN` and `FT_UP`); the machine reads it in the format of `Work.level`. Here the first format of the table's
order whose named rows select the word is taken. -/
def tableFormat (nbits w : Nat) : Option Format := firstNamed (formatsOfWidth nbits) w

/-- The instruction the decoder reads from a table word of `nbits` bits (log entry 3). -/
def decodeTableWord (nbits w : Nat) : Option Instr :=
  match tableFormat nbits w with
  | none => none
  | some f =>
    match decode f w with
    | .ok i => some i
    | .error _ => none

end Sys2Proof
end

