-- ==== Sys2Proof/Machine/State.lean ====
section
/-! DEFINITION. The state of the block as plain data (10_state.md R20 to R47), what its host can do to it, the
failure kinds (60_exceptions.md R411), the reasons a step can stop, and the state after hardware reset (R47). -/

namespace Sys2Proof.Machine

/-- `STATUS` (R23). `busy` exists only while a command runs (`Work.level` other than `cmd`). -/
inductive Status where
  | idle
  | busy
  | done
  | fault
  deriving DecidableEq, Repr

/-- The failure kinds of the code table (R411). `badSignature`, `truncatedChunk` and `truncatedIhdr` belong to the
host's container (42_container_host.md) and are raised by no command (R412). -/
inductive Failure where
  | badSignature
  | truncatedChunk
  | crcMismatch
  | truncatedIhdr
  | unsupportedFeature
  | reservedBlockType
  | truncatedHuffmanCode
  | emptyAlphabet
  | backrefOutOfRange
  | invalidFilterType
  | insufficientBits
  | invalidSymbol
  | invalidCodeLengths
  | storedLenMismatch
  | bufferOverflow
  | badCommand
  deriving DecidableEq, Repr

/-- A memory of `w`-bit cells: the cells that have been written, addresses strictly rising (`Memory.wf`), over an
unspecified background named by `gen`. An address that is not listed holds an unspecified value, the free value
`Config.freeCell w gen address`; an entry always holds a value, so no entry equals what an unlisted address
holds (log entry 4). -/
structure Memory (w : Nat) where
  gen : Nat
  cells : List (Nat × BitVec w)
  deriving DecidableEq, Repr

/-- One pair of a decode table's finite map `T`: the key `(len, code)` and its symbol (R40). -/
structure Entry where
  len : Nat
  code : Nat
  sym : BitVec 9
  deriving DecidableEq, Repr

/-- A decode table (R40): the map `T` as its list of pairs, and `maxlen`. The representation inside a slot is not
observable (R40, U21). -/
structure Table where
  entries : List Entry
  maxlen : Nat
  deriving DecidableEq, Repr

/-- The working values of a running command (R38): they begin and end inside one atomic command, and between
commands they have the value `Work.idle`. The model keeps them in the state so that each stream-level instruction
(block header, symbol, filter tag) is a step of its own inside `INFLATE` and `DEFILTER` (R3; log entry 5). -/
structure Work where
  /-- The format of the next instruction; `cmd` when no command is running. -/
  level : Format
  /-- `BFINAL` of the current DEFLATE block (R226). -/
  bfinal : Bool
  /-- Whether distance symbols are 5-bit code fields (fixed block) or Huffman codes (R257). -/
  fixedDist : Bool
  /-- `HLIT` of the current dynamic block (R240). -/
  hlit : Nat
  /-- `HDIST` of the current dynamic block (R240). -/
  hdist : Nat
  /-- `k`, the number of code lengths produced so far (R249). -/
  produced : Nat
  /-- The length of the current match, between its length symbol and its distance symbol (R257). -/
  length : Nat
  /-- `r`, the current scanline of `DEFILTER` (R363). -/
  row : Nat
  deriving DecidableEq, Repr

/-- No command running. -/
def Work.idle : Work where
  level := .cmd
  bfinal := false
  fixedDist := false
  hlit := 0
  hdist := 0
  produced := 0
  length := 0
  row := 0

/-- The four memories, each an address space of its own (R34, R77). -/
inductive Space where
  | ibuf
  | obuf
  | rbuf
  | lens
  deriving DecidableEq, Repr

/-- What the host can do between commands (R2, R37, R30 to R33, R450). A write to register index 0 is a write to
`CMD` and issues a command (R22, R380). -/
inductive HostAccess where
  | writeReg (index : Nat) (value : Word)
  | readReg (index : Nat)
  | writeCell (space : Space) (addr : Nat) (value : Byte)
  | readCell (space : Space) (addr : Nat)
  | hardwareReset
  deriving DecidableEq, Repr

/-- The state of the block. -/
structure State where
  /-- `CMD`, index 0x00: the opcode last issued; write-only, a host read returns 0 (R22). -/
  cmd : BitVec 8
  /-- `STATUS`, index 0x01 (R23). -/
  status : Status
  /-- `ERR`, index 0x02 (R27). -/
  err : BitVec 8
  /-- `WARN`, index 0x03; bit 0 is `WARN.NLEN` (R28). -/
  warn : BitVec 1
  /-- `ARG0`, index 0x04 (R21). -/
  arg0 : Word
  /-- `ARG1`, index 0x05 (R21). -/
  arg1 : Word
  /-- `ARG2`, index 0x06 (R21). -/
  arg2 : Word
  /-- `RES0`, index 0x07 (R21). -/
  res0 : Word
  /-- `BR_LEN`, index 0x08 (R25). -/
  brLen : Word
  /-- `BR_POS`, index 0x09: the bit cursor, the block's program counter (R24). -/
  brPos : Word
  /-- `BR_ORDER`, index 0x0A: 0 MSB-first, 1 LSB-first (R26). -/
  brOrder : BitVec 1
  /-- `OLEN`, index 0x0B (R29). -/
  olen : Word
  /-- `RLEN`, index 0x0C (R35). -/
  rlen : Word
  /-- `ZHDR`, index 0x0D (R36). -/
  zhdr : BitVec 16
  /-- `HT_VALID`, index 0x0E: bit `s` for slot `s` (R43). -/
  htValid : BitVec 3
  /-- `IBUF` (R30). -/
  ibuf : Memory 8
  /-- `OBUF` (R31). -/
  obuf : Memory 8
  /-- `RBUF` (R32). -/
  rbuf : Memory 8
  /-- `LENS` (R33). -/
  lens : Memory 4
  /-- Slot 0, `CL` (R41); `none` when its content is unspecified (log entry 6). -/
  slotCL : Option Table
  /-- Slot 1, `LL` (R42). -/
  slotLL : Option Table
  /-- Slot 2, `D` (R43). -/
  slotD : Option Table
  /-- The model's own: the working values of a running command (R38; log entry 5). -/
  work : Work
  /-- The model's own: the host accesses still to come, in order (log entry 7). -/
  pending : List HostAccess
  /-- The model's own: the value the host's last read returned (log entry 7). -/
  hostData : Word
  /-- The model's own: the counter free values are drawn from (log entry 2). -/
  freeCtr : Nat
  /-- The model's own: the parameters of rule R7, written by nothing (log entry 1). -/
  params : Params
  deriving DecidableEq, Repr

/-- Why a step can stop with a fault. The block's own failures are no such stop: they are taken inside a next
state (`STATUS = FAULT`, R420). -/
inductive Fault where
  /-- Raised by a host access to a cell that does not exist (R34: an address outside a memory's range does not
  exist). Safe: the spec gives such an access no effect. -/
  | noSuchCell (space : Space) (addr : Nat)
  deriving DecidableEq, Repr

/-- Why a step can be refused. -/
inductive Refusal where
  /-- Raised by an arm of `exec` whose instruction has no meaning yet. Safe. No arm does. -/
  | notModelled (mnemonic : String)
  deriving DecidableEq, Repr

/-- The result of an operation that can `raise` (R420): a value and the state after it, or the failure kind and
the state in which it was raised. -/
inductive Res (α : Type) where
  | ok (value : α) (s : State)
  | fail (k : Failure) (s : State)

/-- The block right after hardware reset (R47, R450, R451): every register 0, `STATUS = IDLE`, every memory cell
unspecified, the slots unspecified and marked invalid.
`CMD` holds 0 (DESIGN CHOICE, log entry 8: R47 does not list it). -/
def State.reset : State where
  cmd := 0
  status := .idle
  err := 0
  warn := 0
  arg0 := 0
  arg1 := 0
  arg2 := 0
  res0 := 0
  brLen := 0
  brPos := 0
  brOrder := 0
  olen := 0
  rlen := 0
  zhdr := 0
  htValid := 0
  ibuf := ⟨0, []⟩
  obuf := ⟨1, []⟩
  rbuf := ⟨2, []⟩
  lens := ⟨3, []⟩
  slotCL := none
  slotLL := none
  slotD := none
  work := Work.idle
  pending := []
  hostData := 0
  freeCtr := 4
  params := Params.initial

end Sys2Proof.Machine
end

