-- ==== Sys2Proof/Machine/Flags.lean ====
section
/-! DEFINITION. The status flags (10_state.md R45): `STATUS`, `ERR`, `WARN.NLEN`, `HT_VALID`, and the codes of
`STATUS` and `ERR` (R23, R411). -/

namespace Sys2Proof.Machine

/-- The 2-bit code of `STATUS` (R23). -/
def Status.code : Status → BitVec 2
  | .idle => 0
  | .busy => 1
  | .done => 2
  | .fault => 3

/-- The code of a failure kind in `ERR` (R411). -/
def Failure.code : Failure → BitVec 8
  | .badSignature => 1
  | .truncatedChunk => 2
  | .crcMismatch => 3
  | .truncatedIhdr => 4
  | .unsupportedFeature => 5
  | .reservedBlockType => 6
  | .truncatedHuffmanCode => 7
  | .emptyAlphabet => 8
  | .backrefOutOfRange => 9
  | .invalidFilterType => 10
  | .insufficientBits => 11
  | .invalidSymbol => 12
  | .invalidCodeLengths => 13
  | .storedLenMismatch => 14
  | .bufferOverflow => 15
  | .badCommand => 16

/-- The failure kind of a code in `ERR`, if there is one (R411). -/
def Failure.ofCode (code : BitVec 8) : Option Failure :=
  [badSignature, truncatedChunk, crcMismatch, truncatedIhdr, unsupportedFeature, reservedBlockType,
    truncatedHuffmanCode, emptyAlphabet, backrefOutOfRange, invalidFilterType, insufficientBits, invalidSymbol,
    invalidCodeLengths, storedLenMismatch, bufferOverflow, badCommand].find? fun k => k.code == code

/-- Bit `slot` of `HT_VALID` (R43). -/
def slotValid (slot : Nat) (s : State) : Bool := s.htValid.getLsbD slot

/-- `HT_VALID[slot] <- 1` (R43). -/
def setValid (slot : Nat) (s : State) : State :=
  { s with htValid := s.htValid ||| (1#3 <<< slot) }

/-- `HT_VALID[slot] <- 0` (R43). -/
def clearValid (slot : Nat) (s : State) : State :=
  { s with htValid := s.htValid &&& ~~~(1#3 <<< slot) }

/-- `WARN.NLEN <- 1` (R28, R232). -/
def setWarnNlen (s : State) : State := { s with warn := 1 }

end Sys2Proof.Machine
end

