-- ==== Sys2Proof/Machine/Ops.lean ====
section
/-! DEFINITION. The named operations over memories and registers: reading and writing a cell, raising a failure and
leaving the fault state (60_exceptions.md R420 to R422), completing a command (47_commands.md R380), what a failed
command leaves unspecified (R421), and the output operations `append` and `copy` (45_lz77.md). -/

namespace Sys2Proof.Machine

/-! ### Memories (R30 to R34, R74, R75) -/

/-- The listed value of an address, if it is listed. -/
def lookupCell {w : Nat} : List (Nat × BitVec w) → Nat → Option (BitVec w)
  | [], _ => none
  | (k, v) :: rest, a => if k = a then some v else lookupCell rest a

/-- The list with address `a` holding `v`, addresses kept strictly rising. -/
def insertCell {w : Nat} (a : Nat) (v : BitVec w) : List (Nat × BitVec w) → List (Nat × BitVec w)
  | [] => [(a, v)]
  | (k, x) :: rest =>
    if a < k then (a, v) :: (k, x) :: rest
    else if a = k then (a, v) :: rest
    else (k, x) :: insertCell a v rest

/-- Reading one cell: the latest value written to it (R78), or the unspecified value it holds (log entry 4). -/
def Memory.get {w : Nat} (m : Memory w) (a : Nat) : BitVec w :=
  (lookupCell m.cells a).getD (Config.freeCell w m.gen a)

/-- Writing one cell. -/
def Memory.set {w : Nat} (m : Memory w) (a : Nat) (v : BitVec w) : Memory w :=
  { m with cells := insertCell a v m.cells }

/-- A memory whose every cell is unspecified, by the event `gen`. -/
def Memory.unspecified {w : Nat} (gen : Nat) : Memory w := ⟨gen, []⟩

/-- The canonical form: addresses strictly rising. -/
abbrev Memory.wf {w : Nat} (m : Memory w) : Prop := m.cells.Pairwise fun p q => p.1 < q.1

/-- No cell at or above `cap` is listed: an address outside the memory's range does not exist (R34). -/
abbrev Memory.within {w : Nat} (m : Memory w) (cap : Nat) : Prop := ∀ p ∈ m.cells, p.1 < cap

/-- The `n` cells of `m` from address `a`, lowest first: `MemRead` (R11). -/
def Memory.read {w : Nat} (m : Memory w) (a n : Nat) : List (BitVec w) :=
  (List.range n).map fun i => m.get (a + i)

/-- The cells from address `a` on become the listed values, in order: `MemWrite` (R11). -/
def Memory.load {w : Nat} (m : Memory w) (a : Nat) : List (BitVec w) → Memory w
  | [] => m
  | v :: vs => (m.set a v).load (a + 1) vs

/-- The number of cells of a memory (R30 to R33). -/
def Space.size (p : Params) : Space → Nat
  | .ibuf => p.ibufCap
  | .obuf => p.obufCap
  | .rbuf => p.rbufCap
  | .lens => 320

/-! ### Sequencing (R11, R420) -/

/-- Run `f` after `r` unless `r` raised: nothing after a `raise` executes. -/
def Res.andThen {α β : Type} (r : Res α) (f : α → State → Res β) : Res β :=
  match r with
  | .ok a s => f a s
  | .fail k s => .fail k s

/-! ### Completing and raising (R380, R420) -/

/-- A command that did not raise: `STATUS <- DONE; ERR <- 0`. -/
def complete (s : State) : State :=
  { s with status := .done, err := 0 }

/-- Taking a failure, the block's one exception (R420): `STATUS <- FAULT; ERR <- code(K)`, and the command is over.
Nothing is saved and there is no vector (R421, R441). -/
def raise (k : Failure) (s : State) : State :=
  { s with status := .fault, err := k.code }

/-- Leaving the fault state by `CLR` (R386, R422). -/
def clearFault (s : State) : State := { s with status := .idle, err := 0, warn := 0 }

/-- Every register at its reset value, the memories and the slot contents as they were: what the `RESET` command
does (R47, R385, R422) and what hardware reset does to the registers (R450). -/
def resetRegisters (s : State) : State :=
  { s with
    cmd := 0, status := .idle, err := 0, warn := 0, arg0 := 0, arg1 := 0, arg2 := 0, res0 := 0
    brLen := 0, brPos := 0, brOrder := 0, olen := 0, rlen := 0, zhdr := 0, htValid := 0
    work := Work.idle }

/-- Hardware reset (R450, R451): the registers as above; the content of the memories and of the slots becomes
unspecified. -/
def hardwareReset (s : State) : State :=
  { resetRegisters s with
    ibuf := Memory.unspecified s.freeCtr
    obuf := Memory.unspecified (s.freeCtr + 1)
    rbuf := Memory.unspecified (s.freeCtr + 2)
    lens := Memory.unspecified (s.freeCtr + 3)
    slotCL := none, slotLL := none, slotD := none
    freeCtr := s.freeCtr + 4 }

/-- Running a command (R380): ignored in `FAULT`, which only `RESET` and `CLR` leave. -/
def command (s : State) (body : State → State) : Host.Outcome State Fault Refusal :=
  .next (if s.status = .fault then s else body s)

/-! ### What a failed command leaves unspecified (R421; U1 to U3) -/

/-- A free value of a 32-bit register between `lo` and `hi`. -/
def freeBetween (lo hi tag : Nat) : Word :=
  BitVec.ofNat 32 (lo + (Config.freeReg 32 tag).toNat % (hi - lo + 1))

/-- `RES0` unspecified: a failed `BR_READ` or `BR_READ_REV`. -/
def spoilResult (s : State) : State :=
  { s with res0 := Config.freeReg 32 s.freeCtr, freeCtr := s.freeCtr + 1 }

/-- `RES0` unspecified and `BR_POS` unspecified between its value `pos` before the command and `8*BR_LEN`: a failed
`HT_DECODE`. -/
def spoilDecode (pos : Nat) (s : State) : State :=
  { s with
    res0 := Config.freeReg 32 s.freeCtr
    brPos := freeBetween pos (8 * s.brLen.toNat) (s.freeCtr + 1)
    freeCtr := s.freeCtr + 2 }

/-- `BR_POS`, `OLEN`, `OBUF`, `ZHDR`, `LENS` and the slot contents unspecified, `BR_POS` at most `8*BR_LEN` and
`OLEN` at most `OBUF_CAP` (R46): a failed `INFLATE`. Its working values end with it (R38). -/
def spoilInflate (s : State) : State :=
  { s with
    brPos := freeBetween 0 (8 * s.brLen.toNat) s.freeCtr
    olen := freeBetween 0 s.params.obufCap (s.freeCtr + 1)
    zhdr := Config.freeReg 16 (s.freeCtr + 2)
    obuf := Memory.unspecified (s.freeCtr + 3)
    lens := Memory.unspecified (s.freeCtr + 4)
    slotCL := none, slotLL := none, slotD := none
    work := Work.idle
    freeCtr := s.freeCtr + 5 }

/-- `RBUF` and `RLEN` unspecified, `RLEN` at most `RBUF_CAP` (R46): a failed `DEFILTER`. Its working values
end with it (R38). -/
def spoilRows (s : State) : State :=
  { s with
    rlen := freeBetween 0 s.params.rbufCap s.freeCtr
    rbuf := Memory.unspecified (s.freeCtr + 1)
    work := Work.idle
    freeCtr := s.freeCtr + 2 }

/-- A failure inside `INFLATE`. -/
def raiseInflate (k : Failure) (s : State) : State := raise k (spoilInflate s)

/-- A failure inside the rows of `DEFILTER`. -/
def raiseDefilter (k : Failure) (s : State) : State := raise k (spoilRows s)

/-- The end of `INFLATE` (R225, R220): the command completes; `LENS` and the slots are left unspecified. -/
def completeInflate (s : State) : State :=
  complete { s with
    lens := Memory.unspecified s.freeCtr
    slotCL := none, slotLL := none, slotD := none
    work := Work.idle
    freeCtr := s.freeCtr + 1 }

/-- The end of one stream-level instruction of `INFLATE`: the state it leaves, or the failure it raised. -/
def settleInflate (r : Res Unit) : Host.Outcome State Fault Refusal :=
  .next (match r with
    | .ok _ s => s
    | .fail k s => raiseInflate k s)

/-! ### Huffman slots (R40 to R43) -/

/-- The content of a slot. -/
def slotTable (slot : Nat) (s : State) : Option Table :=
  match slot with
  | 0 => s.slotCL
  | 1 => s.slotLL
  | _ => s.slotD

/-- The content of a slot replaced. -/
def setSlot (slot : Nat) (t : Option Table) (s : State) : State :=
  match slot with
  | 0 => { s with slotCL := t }
  | 1 => { s with slotLL := t }
  | _ => { s with slotD := t }

/-- The number of symbols a slot can hold: 19, 288, 32 (R41 to R43). -/
def slotSize : Nat → Nat
  | 0 => 19
  | 1 => 288
  | _ => 32

/-! ### Output (R350, R351) -/

/-- `append(b)` (R350). -/
def append (b : Byte) (s : State) : Res Unit :=
  if s.params.obufCap ≤ s.olen.toNat then .fail .bufferOverflow s
  else .ok () { s with obuf := s.obuf.set s.olen.toNat b, olen := s.olen + 1 }

/-- The loop of `copy`: `OLEN` is read again for each byte, so that a byte this copy wrote can be copied (R352). -/
def copyLoop : Nat → Nat → State → Res Unit
  | 0, _, s => .ok () s
  | n + 1, distance, s =>
    (append (s.obuf.get (s.olen.toNat - distance)) s).andThen fun _ s => copyLoop n distance s

/-- `copy(length, distance)` (R351): the range test once, before any byte is copied. -/
def copy (length distance : Nat) (s : State) : Res Unit :=
  if s.olen.toNat < distance then .fail .backrefOutOfRange s
  else copyLoop length distance s

end Sys2Proof.Machine
end

