-- ==== Sys2Proof/Machine/Operands.lean ====
section
/-! DEFINITION. Where instructions take their operands from: the bit reader's reads (40_bitreader.md), the operand
fields of `ARG0` to `ARG2` (30_encoding.md R100, 46_defilter.md R360, R361), and the constant tables of the stream
formats (R106, R111 to R113). -/

namespace Sys2Proof.Machine

/-! ### The bit reader (R140 to R147) -/

/-- `remaining_bits()` (R144). -/
def remainingBits (s : State) : Nat := 8 * s.brLen.toNat - s.brPos.toNat

/-- Stream bit `k` (R141): `IBUF` is read when the bit is, in the order `BR_ORDER` says. -/
def streamBit (s : State) (k : Nat) : Bool :=
  let b := s.ibuf.get (k / 8)
  if s.brOrder = 1 then b.getLsbD (k % 8) else b.getLsbD (7 - k % 8)

/-- The `n` stream bits from bit `k`, the first-read bit most significant (R142). -/
def packCode (s : State) (k : Nat) : Nat → Nat
  | 0 => 0
  | n + 1 => packCode s k n * 2 + (streamBit s (k + n)).toNat

/-- The `n` stream bits from bit `k`, the first-read bit least significant (R143). -/
def packInteger (s : State) (k : Nat) : Nat → Nat
  | 0 => 0
  | n + 1 => packInteger s k n + (streamBit s (k + n)).toNat * 2 ^ n

/-- The cursor moved past `n` bits. -/
def advance (n : Nat) (s : State) : State := { s with brPos := s.brPos + BitVec.ofNat 32 n }

/-- `read(n)` (R142, R146). -/
def readCode (n : Nat) (s : State) : Res Nat :=
  if remainingBits s < n then .fail .insufficientBits s
  else .ok (packCode s s.brPos.toNat n) (advance n s)

/-- `read_reversed(n)` (R143, R146). -/
def readReversed (n : Nat) (s : State) : Res Nat :=
  if remainingBits s < n then .fail .insufficientBits s
  else .ok (packInteger s s.brPos.toNat n) (advance n s)

/-! ### Operand fields of the commands (R100, R360, R361) -/

/-- `ROWBYTES = ARG0`. -/
def rowBytes (s : State) : Nat := s.arg0.toNat

/-- `W = ROWBYTES - 1`, the sample bytes of a row. -/
def rowWidth (s : State) : Nat := s.arg0.toNat - 1

/-- `NROWS = ARG1`. -/
def nRows (s : State) : Nat := s.arg1.toNat

/-- `CHANNELS = ARG2[7:0]`. -/
def channels (s : State) : Nat := (s.arg2.extractLsb' 0 8).toNat

/-- `DEPTH = ARG2[15:8]`. -/
def depth (s : State) : Nat := (s.arg2.extractLsb' 8 8).toNat

/-- `bpp`, the filter stride in bytes (R361). -/
def bytesPerPixel (s : State) : Nat := channels s * max 1 (depth s / 8)

/-! ### Constant tables -/

/-- `CLORDER`, the transmission order of the code-length code lengths (R106). -/
def clOrder : List Nat := [16, 17, 18, 0, 8, 7, 9, 6, 10, 5, 11, 4, 12, 3, 13, 2, 14, 1, 15]

/-- `FIXEDLENS`, the fixed literal/length code lengths (R113). -/
def fixedLens : List Nat :=
  List.replicate 144 8 ++ List.replicate 112 9 ++ List.replicate 24 7 ++ List.replicate 8 8

/-- `(LEXTRA[s], LBASE[s])` of the length symbols 257 to 285, in order (R111). -/
def lengthTable : List (Nat × Nat) :=
  [(0, 3), (0, 4), (0, 5), (0, 6), (0, 7), (0, 8), (0, 9), (0, 10), (1, 11), (1, 13)] ++
  [(1, 15), (1, 17), (2, 19), (2, 23), (2, 27), (2, 31), (3, 35), (3, 43), (3, 51), (3, 59)] ++
  [(4, 67), (4, 83), (4, 99), (4, 115), (5, 131), (5, 163), (5, 195), (5, 227), (0, 258)]

/-- `(DEXTRA[d], DBASE[d])` of the distance symbols 0 to 29, in order (R112). -/
def distanceTable : List (Nat × Nat) :=
  [(0, 1), (0, 2), (0, 3), (0, 4), (1, 5), (1, 7), (2, 9), (2, 13), (3, 17), (3, 25)] ++
  [(4, 33), (4, 49), (5, 65), (5, 97), (6, 129), (6, 193), (7, 257), (7, 385), (8, 513), (8, 769)] ++
  [(9, 1025), (9, 1537), (10, 2049), (10, 3073), (11, 4097), (11, 6145), (12, 8193), (12, 12289)] ++
  [(13, 16385), (13, 24577)]

end Sys2Proof.Machine
end

