-- ==== Sys2Proof/Machine/BitReader.lean ====
section
/-! DEFINITION. The bit reader commands (47_commands.md R387 to R390). -/

namespace Sys2Proof.Machine

/-- A reader over `IBUF[0 .. len-1]` at its first bit (R140). -/
def openReader (len : Word) (order : BitVec 1) (s : State) : State :=
  { s with brLen := len, brOrder := order, brPos := 0 }

/-- `BR_INIT` (R387): length `ARG0`, order `ARG1[0]`. -/
def execBrInit (s : State) : Host.Outcome State Fault Refusal :=
  command s fun s =>
    if s.params.ibufCap < s.arg0.toNat then raise .badCommand s
    else complete (openReader s.arg0 (s.arg1.extractLsb' 0 1) s)

/-- The end of a read command (R388, R389): its value in `RES0`, or the failure with `RES0` unspecified (R421). -/
def settleRead (r : Res Nat) : State :=
  match r with
  | .ok v s => complete { s with res0 := BitVec.ofNat 32 v }
  | .fail k s => raise k (spoilResult s)

/-- `BR_READ` (R388): `RES0 <- read(ARG0)`. -/
def execBrRead (s : State) : Host.Outcome State Fault Refusal :=
  command s fun s =>
    if 32 < s.arg0.toNat then raise .badCommand s
    else settleRead (readCode s.arg0.toNat s)

/-- `BR_READ_REV` (R389): `RES0 <- read_reversed(ARG0)`. -/
def execBrReadRev (s : State) : Host.Outcome State Fault Refusal :=
  command s fun s =>
    if 32 < s.arg0.toNat then raise .badCommand s
    else settleRead (readReversed s.arg0.toNat s)

/-- `BR_REMAINING` (R390): `RES0 <- remaining_bits()`. -/
def execBrRemaining (s : State) : Host.Outcome State Fault Refusal :=
  command s fun s => complete { s with res0 := BitVec.ofNat 32 (remainingBits s) }

end Sys2Proof.Machine
end

