-- ==== Sys2Proof/Machine/Crc.lean ====
section
/-! DEFINITION. The CRC-32 engine (41_crc32.md) and its commands (47_commands.md R395, R396). -/

namespace Sys2Proof.Machine

/-- `POLY` (R160). -/
def crcPoly : Word := 0x04C11DB7#32

/-- The bits of a byte, least significant first (R160: input reflection). -/
def byteBits (b : Byte) : List Bool := (List.range 8).map b.getLsbD

/-- `s(0), s(1), ...`: the bits of a message, byte by byte (R161). -/
def messageBits (m : List Byte) : List Bool := m.flatMap byteBits

/-- The register shifted left by one with a bit coming in (R161). -/
def shiftIn (reg : Word) (b : Bool) : Word := (reg <<< 1) ||| (BitVec.ofBool b).setWidth 32

/-- One step of the loop of `crc32` (R161). -/
def crcStep (reg : Word) (b : Bool) : Word :=
  if reg.msb then shiftIn reg b ^^^ crcPoly else shiftIn reg b

/-- `crc32(M)` (R161): four zero bytes appended, the register begun with the first 32 bits, the first of them on
top, XOR `0xFFFFFFFF`; one step for every other bit; then the bit-reversed register XOR `0xFFFFFFFF`. -/
def crc32 (m : List Byte) : Word :=
  let bits := messageBits (m ++ [0, 0, 0, 0])
  let reg := (bits.take 32).foldl shiftIn 0 ^^^ 0xFFFFFFFF#32
  ((bits.drop 32).foldl crcStep reg).reverse ^^^ 0xFFFFFFFF#32

/-- The reflected bit-serial form of the CRC (R162), an equivalent form for proofs; no instruction uses it. -/
def crc32Reflected (m : List Byte) : Word :=
  let bit (crc : Word) : Word := if crc.getLsbD 0 then (crc >>> 1) ^^^ 0xEDB88320#32 else crc >>> 1
  let byte (crc : Word) (b : Byte) : Word := Nat.repeat bit 8 (crc ^^^ b.setWidth 32)
  m.foldl byte 0xFFFFFFFF#32 ^^^ 0xFFFFFFFF#32

/-- The big-endian number of the four bytes at `a` (R118, R165). -/
def bigEndian32 (m : Memory 8) (a : Nat) : Word :=
  m.get a ++ m.get (a + 1) ++ m.get (a + 2) ++ m.get (a + 3)

/-- `crc32(IBUF[o .. o+n-1])` with `o = ARG0`, `n = ARG1` (R164). -/
def messageCrc (s : State) : Word := crc32 (s.ibuf.read s.arg0.toNat s.arg1.toNat)

/-- `CRC_COMPUTE` (R395, R164). -/
def execCrcCompute (s : State) : Host.Outcome State Fault Refusal :=
  command s fun s =>
    if s.params.ibufCap < s.arg0.toNat + s.arg1.toNat then raise .badCommand s
    else complete { s with res0 := messageCrc s }

/-- `CRC_CHECK` (R396, R165): `RES0` holds the computed CRC also when it differs from the stored one. -/
def execCrcCheck (s : State) : Host.Outcome State Fault Refusal :=
  command s fun s =>
    if s.params.ibufCap < s.arg0.toNat + s.arg1.toNat + 4 then raise .badCommand s
    else
      let r := messageCrc s
      let s' := { s with res0 := r }
      if r = bigEndian32 s.ibuf (s.arg0.toNat + s.arg1.toNat) then complete s' else raise .crcMismatch s'

end Sys2Proof.Machine
end

