-- ==== Sys2Proof/Machine/Housekeeping.lean ====
section
/-! DEFINITION. The housekeeping commands `NOP`, `RESET`, `CLR`, the illegal opcodes, and `OB_SETLEN`
(47_commands.md R382, R384 to R386, R394). -/

namespace Sys2Proof.Machine

/-- `NOP` (R384): completes and does nothing else. -/
def execNop (s : State) : Host.Outcome State Fault Refusal := command s complete

/-- `RESET` (R385): accepted in every state, `FAULT` included. -/
def execReset (s : State) : Host.Outcome State Fault Refusal := .next (resetRegisters s)

/-- `CLR` (R386): accepted in every state, `FAULT` included. -/
def execClr (s : State) : Host.Outcome State Fault Refusal := .next (clearFault s)

/-- Any other opcode (R382): `BadCommand`, and nothing else changes. -/
def execCmdIllegal (_op : BitVec 8) (s : State) : Host.Outcome State Fault Refusal :=
  command s (raise .badCommand)

/-- `OB_SETLEN` (R394): `OLEN <- ARG0`. -/
def execObSetlen (s : State) : Host.Outcome State Fault Refusal :=
  command s fun s =>
    if s.params.obufCap < s.arg0.toNat then raise .badCommand s
    else complete { s with olen := s.arg0 }

end Sys2Proof.Machine
end

