-- ==== Sys2Proof/Machine/Defilter.lean ====
section
/-! DEFINITION. The scanline defilter (46_defilter.md): the five filter types, the illegal tags, and the operand
checks of `DEFILTER` (R360). A filter type's meaning acts on row `Work.row`, whose tag has been read. -/

namespace Sys2Proof.Machine

/-- `paeth(a, b, c)` (R368), in exact integers (R370). -/
def paeth (a b c : Nat) : Nat :=
  let p : Int := a + b - c
  let pa := (p - a).natAbs
  let pb := (p - b).natAbs
  let pc := (p - c).natAbs
  if pa ≤ pb ∧ pa ≤ pc then a else if pb ≤ pc then b else c

/-- A predictor: from the neighbours `a` left, `b` up, `c` upper-left (R362). -/
abbrev Predictor := Nat → Nat → Nat → Nat

/-- `pred_0 = 0` (R364). -/
def predNone : Predictor := fun _ _ _ => 0

/-- `pred_1 = a` (R365). -/
def predSub : Predictor := fun a _ _ => a

/-- `pred_2 = b` (R366). -/
def predUp : Predictor := fun _ b _ => b

/-- `pred_3 = (a + b) div 2`, the sum not reduced (R367, R370). -/
def predAverage : Predictor := fun a b _ => (a + b) / 2

/-- `pred_4 = paeth(a, b, c)` (R368). -/
def predPaeth : Predictor := paeth

/-- `Recon(r, i) = RBUF[r*W + i]` (R362). -/
def recon (s : State) (r i : Nat) : Nat := (s.rbuf.get (r * rowWidth s + i)).toNat

/-- The left neighbour `a` (R362). -/
def leftOf (s : State) (r i : Nat) : Nat :=
  if bytesPerPixel s ≤ i then recon s r (i - bytesPerPixel s) else 0

/-- The upper neighbour `b` (R362). -/
def upOf (s : State) (r i : Nat) : Nat := if 1 ≤ r then recon s (r - 1) i else 0

/-- The upper-left neighbour `c` (R362). -/
def upLeftOf (s : State) (r i : Nat) : Nat :=
  if 1 ≤ r ∧ bytesPerPixel s ≤ i then recon s (r - 1) (i - bytesPerPixel s) else 0

/-- The filtered byte `x = OBUF[r*ROWBYTES + 1 + i]` (R362). -/
def filtered (s : State) (r i : Nat) : Nat := (s.obuf.get (r * rowBytes s + 1 + i)).toNat

/-- `(x + pred_t(a, b, c)) mod 256` at row `r`, byte `i` (R363). -/
def reconByte (pred : Predictor) (s : State) (r i : Nat) : Byte :=
  BitVec.ofNat 8 (filtered s r i + pred (leftOf s r i) (upOf s r i) (upLeftOf s r i))

/-- The inner loop of `DEFILTER` (R363): `n` bytes of row `r` from byte `i` on, in ascending order, each written
before the next is computed (R79). -/
def reconRow (pred : Predictor) (r : Nat) : Nat → Nat → State → State
  | 0, _, s => s
  | n + 1, i, s =>
    reconRow pred r n (i + 1) { s with rbuf := s.rbuf.set (r * rowWidth s + i) (reconByte pred s r i) }

/-- The end of `DEFILTER` (R363): `RLEN <- NROWS * W`. -/
def completeDefilter (s : State) : State :=
  complete { s with rlen := BitVec.ofNat 32 (nRows s * rowWidth s), work := Work.idle }

/-- The end of a row (R363): the next one, or the end of the command. -/
def nextRow (s : State) : State :=
  if s.work.row + 1 < nRows s then { s with work := { s.work with row := s.work.row + 1 } }
  else completeDefilter s

/-- A row of a legal filter type. -/
def filterRow (pred : Predictor) (s : State) : Host.Outcome State Fault Refusal :=
  .next (nextRow (reconRow pred s.work.row (rowWidth s) 0 s))

/-- `FT_NONE` (R364). -/
def execFtNone (s : State) : Host.Outcome State Fault Refusal := filterRow predNone s

/-- `FT_SUB` (R365). -/
def execFtSub (s : State) : Host.Outcome State Fault Refusal := filterRow predSub s

/-- `FT_UP` (R366). -/
def execFtUp (s : State) : Host.Outcome State Fault Refusal := filterRow predUp s

/-- `FT_AVERAGE` (R367). -/
def execFtAverage (s : State) : Host.Outcome State Fault Refusal := filterRow predAverage s

/-- `FT_PAETH` (R368). -/
def execFtPaeth (s : State) : Host.Outcome State Fault Refusal := filterRow predPaeth s

/-- `FT_ILLEGAL` (R369): raised when the row's tag is read, before any byte of the row is reconstructed. -/
def execFtIllegal (_tag : BitVec 8) (s : State) : Host.Outcome State Fault Refusal :=
  .next (raiseDefilter .invalidFilterType s)

/-- The operand checks of `DEFILTER`, in their order (R360, R397). -/
def defilterCheck (s : State) : Option Failure :=
  if rowBytes s = 0 ∨ channels s = 0 then some .badCommand
  else if s.olen.toNat < nRows s * rowBytes s then some .badCommand
  else if s.params.rbufCap < nRows s * rowWidth s then some .bufferOverflow
  else none

end Sys2Proof.Machine
end

