-- ==== Sys2Proof/Machine/Huffman.lean ====
section
/-! DEFINITION. The canonical Huffman decoder (43_huffman.md): building a table from code lengths, decoding one
symbol, and the commands `HT_BUILD` and `HT_DECODE` (47_commands.md R391, R392). -/

namespace Sys2Proof.Machine

/-- `count[l]`: the number of symbols whose length is `l` (R201). -/
def countLen (lens : List Nat) (l : Nat) : Nat := lens.count l

/-- `first[l]`: the first code of length `l` (R201); `first[1] = 0`. -/
def firstCode (lens : List Nat) : Nat → Nat
  | 0 => 0
  | 1 => 0
  | l + 2 => (firstCode lens (l + 1) + countLen lens (l + 1)) * 2

/-- `maxlen`: the largest length, 0 when there is none (R201). -/
def maxLen (lens : List Nat) : Nat := lens.foldl max 0

/-- The loop of `build` (R201) over the lengths of the symbols from `sym` on: `next[l]` is the next code of
length `l`, and a symbol of length 0 gets none. -/
def assignCodes (next : List Nat) (sym : Nat) : List Nat → List Entry
  | [] => []
  | l :: rest =>
    if l = 0 then assignCodes next (sym + 1) rest
    else
      let code := next.getD l 0
      ⟨l, code, BitVec.ofNat 9 sym⟩ :: assignCodes (next.set l (code + 1)) (sym + 1) rest

/-- `build` without the slot (R201, R202): `none` is `EmptyAlphabet`. Codes are natural numbers and are not cut to
their length, so over-subscribed lengths give unreachable keys (R203). -/
def buildTable (lens : List Nat) : Option Table :=
  let m := maxLen lens
  if m = 0 then none
  else some ⟨assignCodes ((List.range (m + 1)).map (firstCode lens)) 0 lens, m⟩

/-- `build(slot, lens)` (R201). The content of a slot whose build failed is unspecified (R202). -/
def build (slot : Nat) (lens : List Nat) (s : State) : Res Unit :=
  match buildTable lens with
  | none => .fail .emptyAlphabet (setSlot slot none s)
  | some t => .ok () (setSlot slot (some t) s)

/-- `T[(len, code)]`, if the key is in the map (R204). -/
def Table.find (t : Table) (len code : Nat) : Option (BitVec 9) :=
  (t.entries.find? fun e => e.len == len && e.code == code).map Entry.sym

/-- The loop of `decode_one` (R204): `acc` is the prefix of `len` bits read so far; the first number counts the bits
still to try. It stops after `maxlen` bits, since no key is longer and the outcome is then fixed (R205). -/
def decodeLoop (t : Table) : Nat → Nat → Nat → State → Res (BitVec 9)
  | 0, _, _, s => .fail .truncatedHuffmanCode s
  | n + 1, len, acc, s =>
    if remainingBits s = 0 then .fail .truncatedHuffmanCode s
    else
      let acc := acc * 2 + (streamBit s s.brPos.toNat).toNat
      match t.find (len + 1) acc with
      | some sym => .ok sym (advance 1 s)
      | none => decodeLoop t n (len + 1) acc (advance 1 s)

/-- `decode_one(slot)` (R204). A slot whose content is unspecified has no key: nothing decodes with it, and no
command or symbol reads one (R43; log entry 6). -/
def decodeOne (slot : Nat) (s : State) : Res (BitVec 9) :=
  match slotTable slot s with
  | none => .fail .truncatedHuffmanCode s
  | some t => decodeLoop t t.maxlen 0 0 s

/-- The code lengths `LENS[a .. a+n-1]` as numbers. -/
def lensFrom (a n : Nat) (s : State) : List Nat := (s.lens.read a n).map BitVec.toNat

/-- `HT_BUILD` (R391): `slot = ARG0`, `n = ARG1`, the lengths `LENS[0 .. n-1]`. -/
def execHtBuild (s : State) : Host.Outcome State Fault Refusal :=
  command s fun s =>
    let slot := s.arg0.toNat
    let n := s.arg1.toNat
    if 2 < slot then raise .badCommand s
    else if slotSize slot < n then raise .badCommand s
    else match build slot (lensFrom 0 n s) s with
      | .ok _ s' => complete (setValid slot s')
      | .fail k s' => raise k (clearValid slot s')

/-- `HT_DECODE` (R392): `slot = ARG0`; `RES0 <- decode_one(slot)`. -/
def execHtDecode (s : State) : Host.Outcome State Fault Refusal :=
  command s fun s =>
    let slot := s.arg0.toNat
    if 2 < slot then raise .badCommand s
    else if slotValid slot s then
      match decodeOne slot s with
      | .ok sym s' => complete { s' with res0 := sym.setWidth 32 }
      | .fail k s' => raise k (spoilDecode s.brPos.toNat s')
    else raise .badCommand s

end Sys2Proof.Machine
end

