-- ==== Sys2Proof/Machine/Blocks.lean ====
section
/-! DEFINITION. DEFLATE blocks (44_deflate.md sections 2 to 6): the zlib header, the block headers, stored, fixed
and dynamic blocks, and the code-length symbols of a dynamic header. Each meaning acts on the state after the
instruction's own bits (the 3-bit header, the symbol's code) have been consumed. -/

namespace Sys2Proof.Machine

/-- The zlib header (R221 to R223): `ZHDR` is written after both bytes are read, then FDICT is tested. -/
def zlibHeader (s : State) : Res Unit :=
  (readReversed 8 s).andThen fun cmf s =>
  (readReversed 8 s).andThen fun flg s =>
  let s := { s with zhdr := BitVec.ofNat 16 (cmf + 256 * flg) }
  if flg.testBit 5 then .fail .unsupportedFeature s else .ok () s

/-- The end of a DEFLATE block (R225, R228): after the final one the command completes, otherwise the next header
is read at the current cursor. -/
def endBlock (s : State) : State :=
  if s.work.bfinal then completeInflate s
  else { s with work := { Work.idle with level := .blkhdr } }

/-- The symbol loop is entered (R257) with the block's kind of distance symbol. -/
def enterSymbols (fixedDist : Bool) (s : State) : State :=
  { s with work := { Work.idle with level := .llsym, bfinal := s.work.bfinal, fixedDist := fixedDist } }

/-- `BFINAL` of the block whose header has been read (R226). -/
def setFinal (bfinal : Bool) (s : State) : State := { s with work := { s.work with bfinal := bfinal } }

/-! ### Stored blocks (R230 to R234) -/

/-- The padding before a stored block's length (R230). -/
def alignPad (pos : Nat) : Nat := (8 - pos % 8) % 8

/-- The complement check (R232). -/
def checkComplement (len nlen : Nat) (s : State) : Res Unit :=
  if len = nlen ^^^ 0xFFFF then .ok () s
  else if s.params.strictNlen then .fail .storedLenMismatch s
  else .ok () (setWarnNlen s)

/-- `repeat n times: append(read_reversed(8))` (R233). -/
def copyStored : Nat → State → Res Unit
  | 0, s => .ok () s
  | n + 1, s =>
    (readReversed 8 s).andThen fun b s =>
    (append (BitVec.ofNat 8 b) s).andThen fun _ s => copyStored n s

/-- `stored_block()` (R230 to R233), then the end of the block. -/
def storedBlock (s : State) : Res Unit :=
  (readCode (alignPad s.brPos.toNat) s).andThen fun _ s =>
  (readReversed 16 s).andThen fun len s =>
  (readReversed 16 s).andThen fun nlen s =>
  (checkComplement len nlen s).andThen fun _ s =>
  (copyStored len s).andThen fun _ s => .ok () (endBlock s)

/-- `BLK_STORED` (R230 to R234). -/
def execBlkStored (bfinal : Bool) (s : State) : Host.Outcome State Fault Refusal :=
  settleInflate (storedBlock (setFinal bfinal s))

/-! ### Fixed blocks (R235) -/

/-- `BLK_FIXED` (R235): slot 1 is built from `FIXEDLENS` and the symbol loop begins. -/
def execBlkFixed (bfinal : Bool) (s : State) : Host.Outcome State Fault Refusal :=
  settleInflate <|
    (build 1 fixedLens (setFinal bfinal s)).andThen fun _ s => .ok () (enterSymbols true s)

/-! ### Dynamic blocks (R240 to R250) -/

/-- The code-length code lengths (R244): one 3-bit field for each symbol of the list, in order. -/
def readClLens : List Nat → List Nat → State → Res (List Nat)
  | [], cl, s => .ok cl s
  | sym :: rest, cl, s => (readReversed 3 s).andThen fun v s => readClLens rest (cl.set sym v) s

/-- The header of a dynamic block (R240, R244): the three counts, the code-length code, slot 0. -/
def dynamicHeader (s : State) : Res Unit :=
  (readReversed 5 s).andThen fun hlit s =>
  (readReversed 5 s).andThen fun hdist s =>
  (readReversed 4 s).andThen fun hclen s =>
  (readClLens (clOrder.take (4 + hclen)) (List.replicate 19 0) s).andThen fun cl s =>
  (build 0 cl s).andThen fun _ s =>
  .ok () { s with
    work := { Work.idle with
      level := .clsym, bfinal := s.work.bfinal, hlit := 257 + hlit, hdist := 1 + hdist } }

/-- `BLK_DYNAMIC` (R240 to R244): the header; the code-length symbols follow. -/
def execBlkDynamic (bfinal : Bool) (s : State) : Host.Outcome State Fault Refusal :=
  settleInflate (dynamicHeader (setFinal bfinal s))

/-- `BLK_RESERVED` (R227). -/
def execBlkReserved (_bfinal : Bool) (s : State) : Host.Outcome State Fault Refusal :=
  settleInflate (.fail .reservedBlockType s)

/-! ### Code-length symbols (R245 to R250) -/

/-- `LENS[k .. k+r-1] <- v`. -/
def fillLens (k : Nat) (v : Nibble) : Nat → State → State
  | 0, s => s
  | r + 1, s => fillLens (k + 1) v r { s with lens := s.lens.set k v }

/-- The end of the code-length loop (R249, R250): once `HLIT + HDIST` lengths exist both tables are built and the
symbol loop begins. -/
def afterLengths (s : State) : Res Unit :=
  if s.work.produced < s.work.hlit + s.work.hdist then .ok () s
  else
    (build 1 (lensFrom 0 s.work.hlit s) s).andThen fun _ s =>
    (build 2 (lensFrom s.work.hlit s.work.hdist s) s).andThen fun _ s => .ok () (enterSymbols false s)

/-- `emit(v, r)` (R249), then the test of the loop. -/
def emit (v : Nibble) (r : Nat) (s : State) : Res Unit :=
  if s.work.hlit + s.work.hdist < s.work.produced + r then .fail .invalidCodeLengths s
  else
    let s := fillLens s.work.produced v r s
    afterLengths { s with work := { s.work with produced := s.work.produced + r } }

/-- A repeated zero length: `e <- read_reversed(extra); emit(0, base + e)` (R247, R248). -/
def zeroRepeat (extra base : Nat) (s : State) : Res Unit :=
  (readReversed extra s).andThen fun e s => emit 0 (base + e) s

/-- `CL_LEN` (R245). -/
def execClLen (v : BitVec 4) (s : State) : Host.Outcome State Fault Refusal :=
  settleInflate (emit v 1 s)

/-- `CL_REP` (R246): with no previous length `InvalidCodeLengths`, before the extra field is read. -/
def execClRep (s : State) : Host.Outcome State Fault Refusal :=
  settleInflate <|
    if s.work.produced = 0 then .fail .invalidCodeLengths s
    else (readReversed 2 s).andThen fun e s => emit (s.lens.get (s.work.produced - 1)) (3 + e) s

/-- `CL_ZREP3` (R247). -/
def execClZrep3 (s : State) : Host.Outcome State Fault Refusal := settleInflate (zeroRepeat 3 3 s)

/-- `CL_ZREP11` (R248). -/
def execClZrep11 (s : State) : Host.Outcome State Fault Refusal := settleInflate (zeroRepeat 7 11 s)

/-- `CL_UNREACHABLE`, numbers 19 to 31.
DEDUCED (log entry 9): no table produces them (R122); the last branch of R249's loop, which they would take,
is rule R248. -/
def execClUnreachable (_sym : BitVec 5) (s : State) : Host.Outcome State Fault Refusal :=
  settleInflate (zeroRepeat 7 11 s)

end Sys2Proof.Machine
end

