-- ==== Sys2Proof/Machine/Symbols.lean ====
section
/-! DEFINITION. The symbols of compressed data (44_deflate.md sections 7 to 9): literals, end of block, length
symbols, distance symbols, and the symbols with no meaning. Each meaning acts on the state after the symbol's code
has been consumed. -/

namespace Sys2Proof.Machine

/-- `LIT` (R251): `append(v)`. -/
def execLit (v : BitVec 8) (s : State) : Host.Outcome State Fault Refusal := settleInflate (append v s)

/-- `EOB` (R252): the symbol loop returns to the block loop. -/
def execEob (s : State) : Host.Outcome State Fault Refusal := settleInflate (.ok () (endBlock s))

/-- A length symbol (R253): `length <- base + read_reversed(extra)`; the distance symbol is read next. -/
def lengthSymbol (extra base : Nat) (s : State) : Host.Outcome State Fault Refusal :=
  settleInflate <|
    (readReversed extra s).andThen fun e s =>
    .ok () { s with work := { s.work with level := .dsym, length := base + e } }

/-- A distance symbol (R255): `distance <- base + read_reversed(extra)`, the copy, and back to the symbol loop. -/
def distanceSymbol (extra base : Nat) (s : State) : Host.Outcome State Fault Refusal :=
  settleInflate <|
    (readReversed extra s).andThen fun e s =>
    (copy s.work.length (base + e) s).andThen fun _ s =>
    .ok () { s with work := { s.work with level := .llsym, length := 0 } }

/-- A symbol with no meaning (R254, R256). -/
def invalidSymbol (s : State) : Host.Outcome State Fault Refusal := settleInflate (.fail .invalidSymbol s)

/-- `LL_INVALID286` (R254). -/
def execLlInvalid286 (s : State) : Host.Outcome State Fault Refusal := invalidSymbol s

/-- `LL_INVALID287` (R254). -/
def execLlInvalid287 (s : State) : Host.Outcome State Fault Refusal := invalidSymbol s

/-- `LL_UNREACHABLE`, numbers 288 to 511.
DEDUCED (log entry 9): no table produces them (R122); the last branch of R257's loop, which they would take,
raises `InvalidSymbol`. -/
def execLlUnreachable (_sym : BitVec 9) (s : State) : Host.Outcome State Fault Refusal := invalidSymbol s

/-- `D_INVALID` (R256). -/
def execDInvalid (_b0 : Bool) (s : State) : Host.Outcome State Fault Refusal := invalidSymbol s

/-- `LEN257` (R260). -/
def execLen257 (s : State) : Host.Outcome State Fault Refusal := lengthSymbol 0 3 s

/-- `LEN258` (R261). -/
def execLen258 (s : State) : Host.Outcome State Fault Refusal := lengthSymbol 0 4 s

/-- `LEN259` (R262). -/
def execLen259 (s : State) : Host.Outcome State Fault Refusal := lengthSymbol 0 5 s

/-- `LEN260` (R263). -/
def execLen260 (s : State) : Host.Outcome State Fault Refusal := lengthSymbol 0 6 s

/-- `LEN261` (R264). -/
def execLen261 (s : State) : Host.Outcome State Fault Refusal := lengthSymbol 0 7 s

/-- `LEN262` (R265). -/
def execLen262 (s : State) : Host.Outcome State Fault Refusal := lengthSymbol 0 8 s

/-- `LEN263` (R266). -/
def execLen263 (s : State) : Host.Outcome State Fault Refusal := lengthSymbol 0 9 s

/-- `LEN264` (R267). -/
def execLen264 (s : State) : Host.Outcome State Fault Refusal := lengthSymbol 0 10 s

/-- `LEN265` (R268). -/
def execLen265 (s : State) : Host.Outcome State Fault Refusal := lengthSymbol 1 11 s

/-- `LEN266` (R269). -/
def execLen266 (s : State) : Host.Outcome State Fault Refusal := lengthSymbol 1 13 s

/-- `LEN267` (R270). -/
def execLen267 (s : State) : Host.Outcome State Fault Refusal := lengthSymbol 1 15 s

/-- `LEN268` (R271). -/
def execLen268 (s : State) : Host.Outcome State Fault Refusal := lengthSymbol 1 17 s

/-- `LEN269` (R272). -/
def execLen269 (s : State) : Host.Outcome State Fault Refusal := lengthSymbol 2 19 s

/-- `LEN270` (R273). -/
def execLen270 (s : State) : Host.Outcome State Fault Refusal := lengthSymbol 2 23 s

/-- `LEN271` (R274). -/
def execLen271 (s : State) : Host.Outcome State Fault Refusal := lengthSymbol 2 27 s

/-- `LEN272` (R275). -/
def execLen272 (s : State) : Host.Outcome State Fault Refusal := lengthSymbol 2 31 s

/-- `LEN273` (R276). -/
def execLen273 (s : State) : Host.Outcome State Fault Refusal := lengthSymbol 3 35 s

/-- `LEN274` (R277). -/
def execLen274 (s : State) : Host.Outcome State Fault Refusal := lengthSymbol 3 43 s

/-- `LEN275` (R278). -/
def execLen275 (s : State) : Host.Outcome State Fault Refusal := lengthSymbol 3 51 s

/-- `LEN276` (R279). -/
def execLen276 (s : State) : Host.Outcome State Fault Refusal := lengthSymbol 3 59 s

/-- `LEN277` (R280). -/
def execLen277 (s : State) : Host.Outcome State Fault Refusal := lengthSymbol 4 67 s

/-- `LEN278` (R281). -/
def execLen278 (s : State) : Host.Outcome State Fault Refusal := lengthSymbol 4 83 s

/-- `LEN279` (R282). -/
def execLen279 (s : State) : Host.Outcome State Fault Refusal := lengthSymbol 4 99 s

/-- `LEN280` (R283). -/
def execLen280 (s : State) : Host.Outcome State Fault Refusal := lengthSymbol 4 115 s

/-- `LEN281` (R284). -/
def execLen281 (s : State) : Host.Outcome State Fault Refusal := lengthSymbol 5 131 s

/-- `LEN282` (R285). -/
def execLen282 (s : State) : Host.Outcome State Fault Refusal := lengthSymbol 5 163 s

/-- `LEN283` (R286). -/
def execLen283 (s : State) : Host.Outcome State Fault Refusal := lengthSymbol 5 195 s

/-- `LEN284` (R287). -/
def execLen284 (s : State) : Host.Outcome State Fault Refusal := lengthSymbol 5 227 s

/-- `LEN285` (R288). -/
def execLen285 (s : State) : Host.Outcome State Fault Refusal := lengthSymbol 0 258 s

/-- `DIST0` (R290). -/
def execDist0 (s : State) : Host.Outcome State Fault Refusal := distanceSymbol 0 1 s

/-- `DIST1` (R291). -/
def execDist1 (s : State) : Host.Outcome State Fault Refusal := distanceSymbol 0 2 s

/-- `DIST2` (R292). -/
def execDist2 (s : State) : Host.Outcome State Fault Refusal := distanceSymbol 0 3 s

/-- `DIST3` (R293). -/
def execDist3 (s : State) : Host.Outcome State Fault Refusal := distanceSymbol 0 4 s

/-- `DIST4` (R294). -/
def execDist4 (s : State) : Host.Outcome State Fault Refusal := distanceSymbol 1 5 s

/-- `DIST5` (R295). -/
def execDist5 (s : State) : Host.Outcome State Fault Refusal := distanceSymbol 1 7 s

/-- `DIST6` (R296). -/
def execDist6 (s : State) : Host.Outcome State Fault Refusal := distanceSymbol 2 9 s

/-- `DIST7` (R297). -/
def execDist7 (s : State) : Host.Outcome State Fault Refusal := distanceSymbol 2 13 s

/-- `DIST8` (R298). -/
def execDist8 (s : State) : Host.Outcome State Fault Refusal := distanceSymbol 3 17 s

/-- `DIST9` (R299). -/
def execDist9 (s : State) : Host.Outcome State Fault Refusal := distanceSymbol 3 25 s

/-- `DIST10` (R300). -/
def execDist10 (s : State) : Host.Outcome State Fault Refusal := distanceSymbol 4 33 s

/-- `DIST11` (R301). -/
def execDist11 (s : State) : Host.Outcome State Fault Refusal := distanceSymbol 4 49 s

/-- `DIST12` (R302). -/
def execDist12 (s : State) : Host.Outcome State Fault Refusal := distanceSymbol 5 65 s

/-- `DIST13` (R303). -/
def execDist13 (s : State) : Host.Outcome State Fault Refusal := distanceSymbol 5 97 s

/-- `DIST14` (R304). -/
def execDist14 (s : State) : Host.Outcome State Fault Refusal := distanceSymbol 6 129 s

/-- `DIST15` (R305). -/
def execDist15 (s : State) : Host.Outcome State Fault Refusal := distanceSymbol 6 193 s

/-- `DIST16` (R306). -/
def execDist16 (s : State) : Host.Outcome State Fault Refusal := distanceSymbol 7 257 s

/-- `DIST17` (R307). -/
def execDist17 (s : State) : Host.Outcome State Fault Refusal := distanceSymbol 7 385 s

/-- `DIST18` (R308). -/
def execDist18 (s : State) : Host.Outcome State Fault Refusal := distanceSymbol 8 513 s

/-- `DIST19` (R309). -/
def execDist19 (s : State) : Host.Outcome State Fault Refusal := distanceSymbol 8 769 s

/-- `DIST20` (R310). -/
def execDist20 (s : State) : Host.Outcome State Fault Refusal := distanceSymbol 9 1025 s

/-- `DIST21` (R311). -/
def execDist21 (s : State) : Host.Outcome State Fault Refusal := distanceSymbol 9 1537 s

/-- `DIST22` (R312). -/
def execDist22 (s : State) : Host.Outcome State Fault Refusal := distanceSymbol 10 2049 s

/-- `DIST23` (R313). -/
def execDist23 (s : State) : Host.Outcome State Fault Refusal := distanceSymbol 10 3073 s

/-- `DIST24` (R314). -/
def execDist24 (s : State) : Host.Outcome State Fault Refusal := distanceSymbol 11 4097 s

/-- `DIST25` (R315). -/
def execDist25 (s : State) : Host.Outcome State Fault Refusal := distanceSymbol 11 6145 s

/-- `DIST26` (R316). -/
def execDist26 (s : State) : Host.Outcome State Fault Refusal := distanceSymbol 12 8193 s

/-- `DIST27` (R317). -/
def execDist27 (s : State) : Host.Outcome State Fault Refusal := distanceSymbol 12 12289 s

/-- `DIST28` (R318). -/
def execDist28 (s : State) : Host.Outcome State Fault Refusal := distanceSymbol 13 16385 s

/-- `DIST29` (R319). -/
def execDist29 (s : State) : Host.Outcome State Fault Refusal := distanceSymbol 13 24577 s

end Sys2Proof.Machine
end

