-- ==== Sys2Proof/Machine/Stream.lean ====
section
/-! DEFINITION. Running the stream-level instructions in sequence: fetching the next one (BR_POS is the program
counter, R24), and the commands `INFLATE` and `DEFILTER`, which run their whole stream as one atomic step
(44_deflate.md R220, 46_defilter.md R363, 47_commands.md R381, R393, R397). -/

namespace Sys2Proof.Machine

/-- The 3-bit block header (R226). -/
def fetchHeader (s : State) : Res Instr :=
  (readCode 1 s).andThen fun bfinal s =>
  (readReversed 2 s).andThen fun btype s =>
  .ok (decodeBlockHeader (BitVec.ofNat 3 (bfinal + 2 * btype))) s

/-- The next literal/length symbol (R257). -/
def fetchLitLen (s : State) : Res Instr :=
  (decodeOne 1 s).andThen fun sym s => .ok (decodeLitLen sym) s

/-- The next distance symbol: 5 bits in a fixed block, a Huffman code in a dynamic one (R255, R257). -/
def fetchDistance (s : State) : Res Instr :=
  if s.work.fixedDist then
    (readCode 5 s).andThen fun d s => .ok (decodeDistance (BitVec.ofNat 5 d)) s
  else
    (decodeOne 2 s).andThen fun sym s => .ok (decodeDistance (sym.setWidth 5)) s

/-- The next code-length symbol (R249). -/
def fetchCodeLength (s : State) : Res Instr :=
  (decodeOne 0 s).andThen fun sym s => .ok (decodeCodeLength (sym.setWidth 5)) s

/-- The tag of row `Work.row` (R363). -/
def fetchTag (s : State) : Res Instr :=
  .ok (decodeFilterTag (s.obuf.get (s.work.row * rowBytes s))) s

/-- The next stream-level instruction and the state after its own bits, or the failure of fetching it; `none` when
no command is running and it is the host's turn. -/
def fetch (s : State) : Option (Res Instr) :=
  match s.work.level with
  | .cmd => none
  | .blkhdr => some (fetchHeader s)
  | .llsym => some (fetchLitLen s)
  | .dsym => some (fetchDistance s)
  | .clsym => some (fetchCodeLength s)
  | .ftag => some (fetchTag s)

/-- The meaning of a stream-level instruction, by its constructor; `Dispatch.exec` agrees with it on those
(Laws/Stream.lean, `exec_eq_streamExec`). A command is never fetched from a stream. -/
def streamExec (i : Instr) (s : State) : Host.Outcome State Fault Refusal :=
  match i with
  | .nop => .next s
  | .reset => .next s
  | .clr => .next s
  | .brInit => .next s
  | .brRead => .next s
  | .brReadRev => .next s
  | .brRemaining => .next s
  | .htBuild => .next s
  | .htDecode => .next s
  | .inflate => .next s
  | .obSetlen => .next s
  | .crcCompute => .next s
  | .crcCheck => .next s
  | .defilter => .next s
  | .cmdIllegal _ => .next s
  | .blkStored f => execBlkStored f s
  | .blkFixed f => execBlkFixed f s
  | .blkDynamic f => execBlkDynamic f s
  | .blkReserved f => execBlkReserved f s
  | .lit v => execLit v s
  | .eob => execEob s
  | .len257 => execLen257 s
  | .len258 => execLen258 s
  | .len259 => execLen259 s
  | .len260 => execLen260 s
  | .len261 => execLen261 s
  | .len262 => execLen262 s
  | .len263 => execLen263 s
  | .len264 => execLen264 s
  | .len265 => execLen265 s
  | .len266 => execLen266 s
  | .len267 => execLen267 s
  | .len268 => execLen268 s
  | .len269 => execLen269 s
  | .len270 => execLen270 s
  | .len271 => execLen271 s
  | .len272 => execLen272 s
  | .len273 => execLen273 s
  | .len274 => execLen274 s
  | .len275 => execLen275 s
  | .len276 => execLen276 s
  | .len277 => execLen277 s
  | .len278 => execLen278 s
  | .len279 => execLen279 s
  | .len280 => execLen280 s
  | .len281 => execLen281 s
  | .len282 => execLen282 s
  | .len283 => execLen283 s
  | .len284 => execLen284 s
  | .len285 => execLen285 s
  | .llInvalid286 => execLlInvalid286 s
  | .llInvalid287 => execLlInvalid287 s
  | .llUnreachable sym => execLlUnreachable sym s
  | .dist0 => execDist0 s
  | .dist1 => execDist1 s
  | .dist2 => execDist2 s
  | .dist3 => execDist3 s
  | .dist4 => execDist4 s
  | .dist5 => execDist5 s
  | .dist6 => execDist6 s
  | .dist7 => execDist7 s
  | .dist8 => execDist8 s
  | .dist9 => execDist9 s
  | .dist10 => execDist10 s
  | .dist11 => execDist11 s
  | .dist12 => execDist12 s
  | .dist13 => execDist13 s
  | .dist14 => execDist14 s
  | .dist15 => execDist15 s
  | .dist16 => execDist16 s
  | .dist17 => execDist17 s
  | .dist18 => execDist18 s
  | .dist19 => execDist19 s
  | .dist20 => execDist20 s
  | .dist21 => execDist21 s
  | .dist22 => execDist22 s
  | .dist23 => execDist23 s
  | .dist24 => execDist24 s
  | .dist25 => execDist25 s
  | .dist26 => execDist26 s
  | .dist27 => execDist27 s
  | .dist28 => execDist28 s
  | .dist29 => execDist29 s
  | .dInvalid b => execDInvalid b s
  | .clLen v => execClLen v s
  | .clRep => execClRep s
  | .clZrep3 => execClZrep3 s
  | .clZrep11 => execClZrep11 s
  | .clUnreachable sym => execClUnreachable sym s
  | .ftNone => execFtNone s
  | .ftSub => execFtSub s
  | .ftUp => execFtUp s
  | .ftAverage => execFtAverage s
  | .ftPaeth => execFtPaeth s
  | .ftIllegal tag => execFtIllegal tag s

/-- Running what was fetched, or taking the failure of the fetch; only `INFLATE`'s fetches fail. -/
def streamTurn (r : Res Instr) : Host.Outcome State Fault Refusal :=
  match r with
  | .ok i s => streamExec i s
  | .fail k s => .next (raiseInflate k s)

/-- At most `n` stream-level instructions, until the command is over. Each instruction of `INFLATE` consumes a bit
or ends the command and each of `DEFILTER` is one row, so the bounds below are never reached (R258). -/
def runStream : Nat → State → Host.Outcome State Fault Refusal
  | 0, s => .next s
  | n + 1, s =>
    match fetch s with
    | none => .next s
    | some r =>
      match streamTurn r with
      | .next s' => runStream n s'
      | .fault e => .fault e
      | .refused e => .refused e

/-- What `INFLATE` writes before its first read (R220). -/
def enterInflate (s : State) : State :=
  { s with
    status := .busy, brLen := s.arg0, brOrder := 1, brPos := 0, olen := 0, htValid := 0, work := Work.idle }

/-- The block loop is entered (R220). -/
def enterBlocks (s : State) : State := { s with work := { Work.idle with level := .blkhdr } }

/-- `INFLATE` (R393, R220): the whole zlib stream `IBUF[0 .. ARG0-1]`. -/
def execInflate (s : State) : Host.Outcome State Fault Refusal :=
  if s.status = .fault then .next s
  else if s.params.ibufCap < s.arg0.toNat then .next (raise .badCommand s)
  else
    match zlibHeader (enterInflate s) with
    | .ok _ s' => runStream (8 * s.arg0.toNat) (enterBlocks s')
    | .fail k s' => .next (raiseInflate k s')

/-- The row loop is entered (R363). -/
def enterRows (s : State) : State := { s with status := .busy, work := { Work.idle with level := .ftag } }

/-- `DEFILTER` (R397, R363). -/
def execDefilter (s : State) : Host.Outcome State Fault Refusal :=
  if s.status = .fault then .next s
  else
    match defilterCheck s with
    | some k => .next (raise k s)
    | none =>
      if nRows s = 0 then .next (completeDefilter s)
      else runStream (nRows s) (enterRows s)

end Sys2Proof.Machine
end

