-- ==== Sys2Proof/Machine/HostPort.lean ====
section
/-! DEFINITION. The host's side of the block between commands: the register map (10_state.md R37), the memories
(R30 to R33), hardware reset (R450). Writing `CMD` is in `Step.lean`. -/

namespace Sys2Proof.Machine

/-- What a host read of a register index returns (R22, R37): bits above a register's width read as 0, and so do
`CMD` and every index not in the map. -/
def readRegister (index : Nat) (s : State) : Word :=
  match index with
  | 0x01 => s.status.code.setWidth 32
  | 0x02 => s.err.setWidth 32
  | 0x03 => s.warn.setWidth 32
  | 0x04 => s.arg0
  | 0x05 => s.arg1
  | 0x06 => s.arg2
  | 0x07 => s.res0
  | 0x08 => s.brLen
  | 0x09 => s.brPos
  | 0x0A => s.brOrder.setWidth 32
  | 0x0B => s.olen
  | 0x0C => s.rlen
  | 0x0D => s.zhdr.setWidth 32
  | 0x0E => s.htValid.setWidth 32
  | _ => 0

/-- A host write to a register index other than `CMD` (R37): only `ARG0` to `ARG2` are writable. -/
def writeRegister (index : Nat) (v : Word) (s : State) : State :=
  match index with
  | 0x04 => { s with arg0 := v }
  | 0x05 => { s with arg1 := v }
  | 0x06 => { s with arg2 := v }
  | _ => s

/-- What a host read of a cell returns. -/
def readSpace (sp : Space) (a : Nat) (s : State) : Word :=
  match sp with
  | .ibuf => (s.ibuf.get a).setWidth 32
  | .obuf => (s.obuf.get a).setWidth 32
  | .rbuf => (s.rbuf.get a).setWidth 32
  | .lens => (s.lens.get a).setWidth 32

/-- A host write to a cell: `LENS` keeps the low 4 bits (R33), `RBUF` is not writable (R32). -/
def writeSpace (sp : Space) (a : Nat) (v : Byte) (s : State) : State :=
  match sp with
  | .ibuf => { s with ibuf := s.ibuf.set a v }
  | .obuf => { s with obuf := s.obuf.set a v }
  | .rbuf => s
  | .lens => { s with lens := s.lens.set a (v.setWidth 4) }

/-- The opcode of a write to `CMD` is held there unless the write is ignored: in `FAULT` only `RESET` (0x01) and
`CLR` (0x02) are accepted (R380, R422). -/
def latchCommand (op : BitVec 8) (s : State) : State :=
  if s.status = .fault ∧ op ≠ 0x01 ∧ op ≠ 0x02 then s else { s with cmd := op }

/-- Every host access but the write to `CMD`. -/
def hostAccess (a : HostAccess) (s : State) : Host.Outcome State Fault Refusal :=
  match a with
  | .writeReg index v => .next (writeRegister index v s)
  | .readReg index => .next { s with hostData := readRegister index s }
  | .writeCell sp a v =>
    if a < sp.size s.params then .next (writeSpace sp a v s) else .fault (.noSuchCell sp a)
  | .readCell sp a =>
    if a < sp.size s.params then .next { s with hostData := readSpace sp a s }
    else .fault (.noSuchCell sp a)
  | .hardwareReset => .next (hardwareReset s)

/-! ### Placing an instruction for the next step (the host's `withFetchWord`) -/

/-- Byte `i` of a bit string laid out with stream bit `k` in bit `k mod 8` of byte `k div 8` (R120). -/
def byteOfBits (bits : List Bool) (i : Nat) : Byte :=
  BitVec.ofNat 8 ((List.range 8).foldl (fun acc j => acc + (bits.getD (8 * i + j) false).toNat * 2 ^ j) 0)

/-- A stream of sixteen bytes that begins with the given bits, zeros after them, and a reader at its first bit. -/
def placeStream (bits : List Bool) (s : State) : State :=
  { s with
    ibuf := s.ibuf.load 0 ((List.range 16).map (byteOfBits bits))
    brLen := 16, brPos := 0, brOrder := 1 }

/-- A table with the single code `0` (one bit), which stands for `sym`. -/
def oneCode (sym : BitVec 9) : Table := ⟨[⟨1, 0, sym⟩], 1⟩

/-- `s` in the middle of an `INFLATE` at the given level, with sixteen bytes of stream to come. -/
def placeInflate (w : Work) (bits : List Bool) (s : State) : State :=
  placeStream bits { s with status := .busy, htValid := 0, work := w }

/-- The word `w` of format `f` placed where the next step fetches (log entry 3). A block header and a fixed
distance symbol are stream bits. A Huffman-coded symbol is placed as the bit `0` and a table in which that is the
symbol's code. A filter tag is placed in `OBUF` with operands for one row of that tag alone. -/
def placeWord (f : Format) (w : Nat) (s : State) : State :=
  match f with
  | .cmd =>
    { s with work := Work.idle, pending := .writeReg 0x00 (BitVec.ofNat 32 w) :: s.pending }
  | .blkhdr => placeInflate { Work.idle with level := .blkhdr } (integerField 3 w) s
  | .llsym =>
    placeInflate { Work.idle with level := .llsym, fixedDist := true } []
      (setSlot 1 (some (oneCode (BitVec.ofNat 9 w))) s)
  | .dsym =>
    placeInflate { Work.idle with level := .dsym, fixedDist := true, length := 3 } (codeField 5 w) s
  | .clsym =>
    placeInflate { Work.idle with level := .clsym, hlit := 257, hdist := 1 } []
      (setSlot 0 (some (oneCode (BitVec.ofNat 9 w))) s)
  | .ftag =>
    { s with
      status := .busy, work := { Work.idle with level := .ftag }
      arg0 := 1, arg1 := 1, arg2 := 0x0801
      obuf := s.obuf.set 0 (BitVec.ofNat 8 w), olen := 1 }

end Sys2Proof.Machine
end

