-- ==== Sys2Proof/Machine/Step.lean ====
section
/-! DEFINITION. One step of the block: the next stream-level instruction while a command is running; otherwise the
host's next access, which for a write to `CMD` is a whole command (R381). A block whose host does nothing does
nothing (R451). -/

namespace Sys2Proof.Machine

/-- The step while no command is running. -/
def hostTurn (s : State) : Host.Outcome State Fault Refusal :=
  match s.pending with
  | [] => .next s
  | .writeReg 0 v :: rest =>
    exec (decodeCommand (v.setWidth 8)) (latchCommand (v.setWidth 8) { s with pending := rest })
  | a :: rest => hostAccess a { s with pending := rest }

/-- One step. -/
def step (s : State) : Host.Outcome State Fault Refusal :=
  match fetch s with
  | none => hostTurn s
  | some (.ok i s') => exec i s'
  | some (.fail k s') => .next (raiseInflate k s')

/-- `s` with the table word `w` of `nbits` bits placed where `step` fetches its next instruction, in the format
`decodeTableWord` reads it in (log entry 3). A number that is no word of that width leaves `s` as it is. -/
def State.withFetchWord (s : State) (nbits w : Nat) : State :=
  match tableFormat nbits w with
  | none => s
  | some f => placeWord f w s

end Sys2Proof.Machine
end

