-- ==== Sys2Proof/Machine/Notation.lean ====
section
/-! DEFINITION. The spec's two notations (30_encoding.md R120, R121): a command with its operands as the host
accesses that issue it, and stream elements assembled LSB-first into bytes. -/

namespace Sys2Proof.Machine

/-- `IBUF <- bytes`, `OBUF <- bytes`, `LENS <- list`: host loads starting at cell 0 (R120). -/
def loadScript (sp : Space) (bytes : List Byte) : List HostAccess :=
  bytes.zipIdx.map fun (b, i) => .writeCell sp i b

/-- A command in command notation: the operands are written, then the opcode (R120). -/
def commandScript (op : BitVec 8) (operands : List Word) : List HostAccess :=
  (operands.zipIdx.map fun (v, i) => HostAccess.writeReg (4 + i) v) ++ [.writeReg 0 (op.setWidth 32)]

/-- An element of stream notation (R120). A symbol is written as the code bits it has in the current table. -/
inductive Elem where
  | zhdr (cmf flg : Nat)
  | block (final : Bool) (type : Nat)
  | align
  | int (v n : Nat)
  | code (bits : List Bool)
  deriving DecidableEq, Repr

/-- The stream bits of an element that begins at stream bit `pos`. -/
def Elem.bits (pos : Nat) : Elem → List Bool
  | .zhdr cmf flg => integerField 8 cmf ++ integerField 8 flg
  | .block final type => final :: integerField 2 type
  | .align => List.replicate ((8 - pos % 8) % 8) false
  | .int v n => integerField n v
  | .code bits => bits

/-- The stream bits of a list of elements, the first at stream bit `pos`. -/
def elemBits : Nat → List Elem → List Bool
  | _, [] => []
  | pos, e :: es =>
    let bits := e.bits pos
    bits ++ elemBits (pos + bits.length) es

/-- The bytes of a list of elements (R120): unused bits of the last byte are 0. -/
def assemble (es : List Elem) : List Byte :=
  let bits := elemBits 0 es
  (List.range ((bits.length + 7) / 8)).map (byteOfBits bits)

/-- `LIT s`, `EOB` (256) or `LSYM s` in a fixed block (R114). -/
def fixedSym (s : Nat) : Elem := .code (fixedCode s)

/-- `DSYM d` in a fixed block (R115). -/
def fixedDsym (d : Nat) : Elem := .code (codeField 5 d)

/-- The code of a symbol in a table, as stream bits; none if it has no code. -/
def tableCode (t : Table) (sym : BitVec 9) : Option Elem :=
  (t.entries.find? fun e => e.sym == sym).map fun e => .code (codeField e.len e.code)

/-- The last row of a table of `(extra, base)` pairs whose base is at most `v`, with its index. -/
def lastRow (rows : List (Nat × Nat)) (v : Nat) : Nat × Nat × Nat :=
  rows.zipIdx.foldl (fun best (r, i) => if r.2 ≤ v then (i, r) else best) (0, 0, 0)

/-- `MATCH len dist` in a fixed block (R121): 258 is coded as symbol 285. -/
def fixedMatch (len dist : Nat) : List Elem :=
  let (si, se, sb) := lastRow lengthTable len
  let (di, de, db) := lastRow distanceTable dist
  [fixedSym (257 + si), .int (len - sb) se, fixedDsym di, .int (dist - db) de]

/-- `STORED final=f bytes` (R121). -/
def storedElems (final : Bool) (bytes : List Byte) : List Elem :=
  [.block final 0, .align, .int bytes.length 16, .int (bytes.length ^^^ 0xFFFF) 16] ++
    bytes.map fun b => .int b.toNat 8

end Sys2Proof.Machine
end

