-- ==== Sys2Proof/Machine/Container.lean ====
section
/-! DEFINITION. The PNG chunk container (42_container_host.md): host software around the block, not part of it
(R5). Its rules as functions on a file's bytes (R175 to R187), the host accesses by which it uses the block (R180,
R184, R187), and the whole decode as the host runs it on a block, from the file to the image (R188, R189). No step
of the block uses this file. -/

namespace Sys2Proof.Machine

/-- The PNG signature (R175). -/
def pngSignature : List Byte := [0x89, 0x50, 0x4E, 0x47, 0x0D, 0x0A, 0x1A, 0x0A]

/-- A chunk (R177). -/
structure Chunk where
  length : Nat
  tag : List Byte
  payload : List Byte
  crc : Word
  deriving DecidableEq, Repr

/-- The big-endian number of the four bytes at `p` of a byte sequence (R177). -/
def be32 (bytes : List Byte) (p : Nat) : Word :=
  bytes.getD p 0 ++ bytes.getD (p + 1) 0 ++ bytes.getD (p + 2) 0 ++ bytes.getD (p + 3) 0

def tagIHDR : List Byte := [0x49, 0x48, 0x44, 0x52]
def tagPLTE : List Byte := [0x50, 0x4C, 0x54, 0x45]
def tagIDAT : List Byte := [0x49, 0x44, 0x41, 0x54]
def tagIEND : List Byte := [0x49, 0x45, 0x4E, 0x44]

/-- The recognised chunk types (R181). -/
def recognisedTags : List (List Byte) := [tagIHDR, tagPLTE, tagIDAT, tagIEND]

/-- The chunk at the start of a byte sequence that holds it whole (R177). -/
def firstChunk (bytes : List Byte) : Chunk :=
  let n := (be32 bytes 0).toNat
  ⟨n, (bytes.drop 4).take 4, (bytes.drop 8).take n, be32 bytes (8 + n)⟩

/-- The per-chunk CRC check with the source's leniency: only recognised types can fail (R180, R181). -/
def chunkCrcOk (c : Chunk) : Bool :=
  !recognisedTags.contains c.tag || crc32 (c.tag ++ c.payload) == c.crc

/-- The next chunk of the walk and the bytes after it (R178): none when fewer than 12 bytes remain, and
`TruncatedChunk` when the declared length needs more bytes than remain (R179). -/
def nextChunk (bytes : List Byte) : Option (Except Failure (Chunk × List Byte)) :=
  if bytes.length < 12 then none
  else
    let c := firstChunk bytes
    if bytes.length < 12 + c.length then some (.error .truncatedChunk)
    else some (.ok (c, bytes.drop (12 + c.length)))

/-- The chunk walk (R178) over the bytes after the signature; the number bounds the chunks, of which a file of that
many bytes has fewer. -/
def walkChunks : Nat → List Byte → Except Failure (List Chunk)
  | 0, _ => .ok []
  | n + 1, bytes =>
    match nextChunk bytes with
    | none => .ok []
    | some (.error k) => .error k
    | some (.ok (c, rest)) =>
      if chunkCrcOk c then
        match walkChunks n rest with
        | .ok cs => .ok (c :: cs)
        | .error k => .error k
      else .error .crcMismatch

/-- `parse(bytes)` (R176, R178). -/
def parsePng (file : List Byte) : Except Failure (List Chunk) :=
  if file.take 8 = pngSignature then walkChunks file.length (file.drop 8) else .error .badSignature

/-- The payload of the first IHDR chunk, if it reaches byte `last` (R182). -/
def ihdrPayload (last : Nat) (cs : List Chunk) : Except Failure (List Byte) :=
  match cs.find? (fun c => c.tag = tagIHDR) with
  | none => .error .truncatedIhdr
  | some c => if last < c.payload.length then .ok c.payload else .error .truncatedIhdr

/-- `width()` (R182). -/
def pngWidth (cs : List Chunk) : Except Failure Nat := (ihdrPayload 3 cs).map fun h => (be32 h 0).toNat

/-- `height()` (R182). -/
def pngHeight (cs : List Chunk) : Except Failure Nat := (ihdrPayload 7 cs).map fun h => (be32 h 4).toNat

/-- `bit_depth()` (R182). -/
def pngBitDepth (cs : List Chunk) : Except Failure Nat := (ihdrPayload 8 cs).map fun h => (h.getD 8 0).toNat

/-- `color_type()` (R182). -/
def pngColorType (cs : List Chunk) : Except Failure Nat := (ihdrPayload 9 cs).map fun h => (h.getD 9 0).toNat

/-- `interlace_method()` (R182). -/
def pngInterlace (cs : List Chunk) : Except Failure Nat := (ihdrPayload 12 cs).map fun h => (h.getD 12 0).toNat

/-- The interlace check (R183). -/
def checkInterlace (cs : List Chunk) : Except Failure Unit :=
  match pngInterlace cs with
  | .error k => .error k
  | .ok m => if m = 0 then .ok () else .error .unsupportedFeature

/-- `idat_stream()` (R184). -/
def idatStream (cs : List Chunk) : List Byte := (cs.filter fun c => c.tag = tagIDAT).flatMap Chunk.payload

/-- `plte_bytes()` (R185).
DESIGN CHOICE (log entry 16): the spec does not say which `PLTE` chunk is meant if there are several, nor what
`plte_bytes()` gives if there is none. Here it is the first, as R182 reads `IHDR`, and `none`. -/
def plteBytes (cs : List Chunk) : Option (List Byte) := (cs.find? fun c => c.tag = tagPLTE).map Chunk.payload

/-- Channels per colour type (R187, G6); none for a colour type the spec does not list (log entry 18). -/
def channelCount : Nat → Option Nat
  | 0 => some 1
  | 2 => some 3
  | 3 => some 1
  | 4 => some 2
  | 6 => some 4
  | _ => none

/-- `ROWBYTES = 1 + ceil(width * channels * bit_depth / 8)` (R187, G5). -/
def scanlineBytes (width channels depth : Nat) : Nat := 1 + (width * channels * depth + 7) / 8

/-- The CRC check of a chunk by the block (R180): type, payload and stored CRC loaded at `IBUF[0 ..]`. -/
def crcCheckScript (c : Chunk) : List HostAccess :=
  let stored : List Byte := [24, 16, 8, 0].map fun i => c.crc.extractLsb' i 8
  loadScript .ibuf (c.tag ++ c.payload ++ stored) ++
    commandScript 0x41 [0, BitVec.ofNat 32 (4 + c.length)]

/-- `INFLATE` of a compressed stream (R184). -/
def inflateScript (stream : List Byte) : List HostAccess :=
  loadScript .ibuf stream ++ commandScript 0x30 [BitVec.ofNat 32 stream.length]

/-- What the host writes to `ARG0` as `ROWBYTES`. A row length of `2^32` or more does not fit the register.
DESIGN CHOICE (log entry 17): the host then writes a value on which the block does what R187 and R360 say of the
true row length. With at least one row `OLEN < height * ROWBYTES`, which is `BadCommand`, and so is the operand 0;
with no row no row length above 0 matters, and the operand is 1. -/
def rowBytesOperand (rowBytes height : Nat) : Word :=
  if rowBytes < 2 ^ 32 then BitVec.ofNat 32 rowBytes else if height = 0 then 1 else 0

/-- `DEFILTER` of an image's scanlines (R187). -/
def defilterScript (width height channels depth : Nat) : List HostAccess :=
  commandScript 0x50 [rowBytesOperand (scanlineBytes width channels depth) height, BitVec.ofNat 32 height,
    BitVec.ofNat 32 (channels + 256 * depth)]

/-! ### The host at work on a block (R188) -/

/-- The end of a stretch of host software on a block: a value and the block after it; a failure, which ends the
decode (R188); or a point at which the spec does not say what the host does (log entry 18). -/
inductive HostRes (α : Type) where
  | ok (value : α) (s : State)
  | fail (k : Failure) (s : State)
  | outside (s : State)

/-- Run `f` after `r` if `r` gave a value. -/
def HostRes.andThen {α β : Type} (r : HostRes α) (f : α → State → HostRes β) : HostRes β :=
  match r with
  | .ok a s => f a s
  | .fail k s => .fail k s
  | .outside s => .outside s

/-- What the container computes without the block. -/
def HostRes.ofExcept {α : Type} (r : Except Failure α) (s : State) : HostRes α :=
  match r with
  | .ok a => .ok a s
  | .error k => .fail k s

/-- One access of the host, with the value the host's last read returned. An access to a cell that does not exist,
as for a chunk that does not fit `IBUF` (R180, U25), is outside the spec. -/
def issue (a : HostAccess) (s : State) : HostRes Word :=
  match step { s with pending := a :: s.pending } with
  | .next t => .ok t.hostData t
  | _ => .outside s

/-- Accesses in order. -/
def issueAll : List HostAccess → State → HostRes Unit
  | [], s => .ok () s
  | a :: rest, s => (issue a s).andThen fun _ s => issueAll rest s

/-- A script that ends in a write to `CMD`, then `STATUS` read before any result is used (R466): in `FAULT` the
failure of the block, read from `ERR`, is the host's. -/
def runScript (script : List HostAccess) (s : State) : HostRes Unit :=
  (issueAll script s).andThen fun _ s =>
  (issue (.readReg 0x01) s).andThen fun status s =>
  if status = 3 then
    (issue (.readReg 0x02) s).andThen fun err s =>
    match Failure.ofCode (err.setWidth 8) with
    | some k => .fail k s
    | none => .outside s
  else .ok () s

/-- The CRC check of a chunk of the walk by the block (R180).
DESIGN CHOICE (log entry 18): of the two ways R181 allows for a type that is not recognised, no `CRC_CHECK`. -/
def checkOnBlock (c : Chunk) (s : State) : HostRes Unit :=
  if recognisedTags.contains c.tag then runScript (crcCheckScript c) s else .ok () s

/-- The chunk walk with the CRC checks made by the block, each before the next chunk is looked at (R178, R180). -/
def walkOnBlock : Nat → List Byte → State → HostRes (List Chunk)
  | 0, _, s => .ok [] s
  | n + 1, bytes, s =>
    match nextChunk bytes with
    | none => .ok [] s
    | some (.error k) => .fail k s
    | some (.ok (c, rest)) =>
      (checkOnBlock c s).andThen fun _ s =>
      (walkOnBlock n rest s).andThen fun cs s => .ok (c :: cs) s

/-- `n` cells of `RBUF` from cell `a` on, read by the host. -/
def readRbuf : Nat → Nat → State → HostRes (List Byte)
  | 0, _, s => .ok [] s
  | n + 1, a, s =>
    (issue (.readCell .rbuf a) s).andThen fun v s =>
    (readRbuf n (a + 1) s).andThen fun vs s => .ok (v.setWidth 8 :: vs) s

/-- What the decode delivers (R189). -/
structure Image where
  width : Nat
  height : Nat
  bitDepth : Nat
  channels : Nat
  scanlines : List (List Byte)
  deriving DecidableEq, Repr

/-- The scanlines: row `r` is bytes `r*w` to `(r+1)*w - 1` (R189). -/
def sliceRows (height w : Nat) (bytes : List Byte) : List (List Byte) :=
  (List.range height).map fun r => (bytes.drop (r * w)).take w

/-- Steps 5 and 6 of the decode (R188) and what it delivers (R189). For a colour type R187 does not list the spec
gives no channel count (log entry 18). -/
def deliverImage (width height depth color : Nat) (s : State) : HostRes Image :=
  match channelCount color with
  | none => .outside s
  | some channels =>
    (runScript (defilterScript width height channels depth) s).andThen fun _ s =>
    (issue (.readReg 0x0C) s).andThen fun rlen s =>
    (readRbuf rlen.toNat 0 s).andThen fun bytes s =>
    .ok ⟨width, height, depth, channels,
      sliceRows height (scanlineBytes width channels depth - 1) bytes⟩ s

/-- The whole decode of a PNG file with a block (R188, R189): signature, chunk walk with the CRC checks, header
fields and interlace check, `INFLATE`, `DEFILTER`, and the scanlines read from `RBUF`. A failure ends it, and the
state it ends in is that of a block that has run every command before it. -/
def decodeImage (file : List Byte) (s : State) : HostRes Image :=
  if file.take 8 = pngSignature then
    (walkOnBlock file.length (file.drop 8) s).andThen fun cs s =>
    (HostRes.ofExcept (pngWidth cs) s).andThen fun width s =>
    (HostRes.ofExcept (pngHeight cs) s).andThen fun height s =>
    (HostRes.ofExcept (pngBitDepth cs) s).andThen fun depth s =>
    (HostRes.ofExcept (pngColorType cs) s).andThen fun color s =>
    (HostRes.ofExcept (checkInterlace cs) s).andThen fun _ s =>
    (runScript (inflateScript (idatStream cs)) s).andThen fun _ s =>
    deliverImage width height depth color s
  else .fail .badSignature s

end Sys2Proof.Machine
end

