-- ==== Sys2Proof/Safety.lean ====
section
/-! DEFINITION. What counts as a legal state (10_state.md R46), and the terms the statements are written in. -/

namespace Sys2Proof.Machine

/-- The outcome type of a step. -/
abbrev Out := Host.Outcome State Fault Refusal

/-! ### The invariant -/

/-- The keys and symbols of a table in a slot for `size` symbols (R40 to R43): lengths 1 to `maxlen`, at most 15,
symbols below `size`. -/
def TableOk (size : Nat) (t : Table) : Prop :=
  t.maxlen ≤ 15 ∧ ∀ e ∈ t.entries, 1 ≤ e.len ∧ e.len ≤ t.maxlen ∧ e.sym.toNat < size

/-- What a slot holds, if its content is specified, is a table of its size. -/
def SlotOk (size : Nat) (slot : Option Table) : Prop := ∀ t, slot = some t → TableOk size t

/-- A running `INFLATE` (R220, R23, R43): busy, LSB-first, every slot marked invalid. -/
def Inflating (s : State) : Prop := s.status = .busy ∧ s.brOrder = 1 ∧ s.htValid = 0

/-- The tables the symbol loop decodes with exist (R235, R250). -/
def TablesReady (s : State) : Prop :=
  s.slotLL.isSome = true ∧ (s.work.fixedDist = true ∨ s.slotD.isSome = true)

/-- What holds at each level: between commands no working value survives (R20, R38) and `STATUS` is not `BUSY`
(R23, R46); inside a command its working values are in their ranges. -/
def LevelOk (s : State) : Prop :=
  match s.work.level with
  | .cmd => s.work = Work.idle ∧ s.status ≠ .busy
  | .blkhdr => Inflating s
  | .llsym => Inflating s ∧ TablesReady s
  | .dsym => Inflating s ∧ TablesReady s ∧ 3 ≤ s.work.length ∧ s.work.length ≤ 258
  | .clsym => Inflating s ∧ s.slotCL.isSome = true ∧
      257 ≤ s.work.hlit ∧ s.work.hlit ≤ 288 ∧ 1 ≤ s.work.hdist ∧ s.work.hdist ≤ 32 ∧
      s.work.produced < s.work.hlit + s.work.hdist
  | .ftag => s.status = .busy ∧ 1 ≤ rowBytes s ∧ 1 ≤ channels s ∧ s.work.row < nRows s ∧
      nRows s * rowBytes s ≤ s.olen.toNat ∧ nRows s * rowWidth s ≤ s.params.rbufCap

/-- Rule R46 without its last line about the memories: the ranges of the registers. -/
structure Ranges (s : State) : Prop where
  brLen : s.brLen.toNat ≤ s.params.ibufCap
  brPos : s.brPos.toNat ≤ 8 * s.brLen.toNat
  olen : s.olen.toNat ≤ s.params.obufCap
  rlen : s.rlen.toNat ≤ s.params.rbufCap
  err : s.err ≠ 0 ↔ s.status = .fault

/-- The memories are in canonical form and hold no cell outside their ranges (R34). -/
structure MemoriesOk (s : State) : Prop where
  ibufWf : s.ibuf.wf
  obufWf : s.obuf.wf
  rbufWf : s.rbuf.wf
  lensWf : s.lens.wf
  ibufIn : s.ibuf.within s.params.ibufCap
  obufIn : s.obuf.within s.params.obufCap
  rbufIn : s.rbuf.within s.params.rbufCap
  lensIn : s.lens.within 320

/-- The Huffman slots: a valid slot holds a table (R43), and every table fits its slot. -/
structure SlotsOk (s : State) : Prop where
  cl : SlotOk 19 s.slotCL
  ll : SlotOk 288 s.slotLL
  d : SlotOk 32 s.slotD
  valid : ∀ k, slotValid k s = true → (slotTable k s).isSome = true

/-- The invariant of the model: R46, and what the model adds to it. -/
structure Inv (s : State) : Prop where
  params : s.params.wf = true
  ranges : Ranges s
  memories : MemoriesOk s
  slots : SlotsOk s
  level : LevelOk s

/-! ### Terms of the statements -/

/-- No command is running: the block waits for its host. -/
abbrev State.atHost (s : State) : Prop := s.work.level = .cmd

/-- The commands that a block in `FAULT` ignores (R380). -/
def Instr.ignoredInFault (i : Instr) : Bool := i.format == .cmd && i != .reset && i != .clr

/-- The number of the `n` stream bits from bit `k`, the first-read bit most significant (R101, R142). -/
def codeSum (s : State) (k n : Nat) : Nat :=
  ∑ i ∈ Finset.range n, (streamBit s (k + i)).toNat * 2 ^ (n - 1 - i)

/-- The number of the `n` stream bits from bit `k`, the first-read bit least significant (R101, R143). -/
def integerSum (s : State) (k n : Nat) : Nat :=
  ∑ i ∈ Finset.range n, (streamBit s (k + i)).toNat * 2 ^ i

/-- The stream bits from the cursor on begin with the given ones, and are all there. -/
def StreamBegins (s : State) (bits : List Bool) : Prop :=
  bits.length ≤ remainingBits s ∧
    ∀ i, i < bits.length → streamBit s (s.brPos.toNat + i) = bits.getD i false

/-- The length symbols with their table rows (R111, R260 to R288). -/
def lengthInstrs : List Instr :=
  ([.len257, .len258, .len259, .len260, .len261, .len262, .len263, .len264, .len265, .len266] : List Instr) ++
  ([.len267, .len268, .len269, .len270, .len271, .len272, .len273, .len274, .len275, .len276] : List Instr) ++
  ([.len277, .len278, .len279, .len280, .len281, .len282, .len283, .len284, .len285] : List Instr)

/-- The distance symbols in the order of their numbers (R112, R290 to R319). -/
def distanceInstrs : List Instr :=
  ([.dist0, .dist1, .dist2, .dist3, .dist4, .dist5, .dist6, .dist7, .dist8, .dist9] : List Instr) ++
  ([.dist10, .dist11, .dist12, .dist13, .dist14, .dist15, .dist16, .dist17, .dist18, .dist19] : List Instr) ++
  ([.dist20, .dist21, .dist22, .dist23, .dist24, .dist25, .dist26, .dist27, .dist28, .dist29] : List Instr)

/-- The filter type with its predictor for a legal tag (R364 to R368). -/
def predictorOf : Nat → Predictor
  | 0 => predNone
  | 1 => predSub
  | 2 => predUp
  | 3 => predAverage
  | _ => predPaeth

/-- The filter instructions with their predictors. -/
def filterInstrs : List (Instr × Predictor) :=
  [(.ftNone, predNone), (.ftSub, predSub), (.ftUp, predUp), (.ftAverage, predAverage), (.ftPaeth, predPaeth)]

/-! ### What a statement says of a state after a command -/

/-- Every register at its reset value (R47). `CMD`, which R47 does not list, is left out. -/
structure RegistersAtReset (t : State) : Prop where
  status : t.status = .idle
  err : t.err = 0
  warn : t.warn = 0
  args : t.arg0 = 0 ∧ t.arg1 = 0 ∧ t.arg2 = 0
  res0 : t.res0 = 0
  reader : t.brLen = 0 ∧ t.brPos = 0 ∧ t.brOrder = 0
  olen : t.olen = 0
  rlen : t.rlen = 0
  zhdr : t.zhdr = 0
  htValid : t.htValid = 0

/-- `t` is `s` after a failure of kind `k` inside `INFLATE` (R421): the registers and memories that row of the table
calls unspecified hold any value that keeps R46, everything else is as before. -/
structure AfterInflateFault (k : Failure) (s t : State) : Prop where
  frame : t = { s with
    status := .fault, err := k.code, brPos := t.brPos, olen := t.olen, zhdr := t.zhdr, obuf := t.obuf
    lens := t.lens, slotCL := t.slotCL, slotLL := t.slotLL, slotD := t.slotD
    work := Work.idle, freeCtr := t.freeCtr }
  cursor : t.brPos.toNat ≤ 8 * s.brLen.toNat
  output : t.olen.toNat ≤ s.params.obufCap

/-- `t` is `s` after `InvalidFilterType` (R369, R421): `RBUF` and `RLEN` unspecified, everything else as before. -/
structure AfterRowsFault (s t : State) : Prop where
  frame : t = { s with
    status := .fault, err := 10, rlen := t.rlen, rbuf := t.rbuf, work := Work.idle, freeCtr := t.freeCtr }
  length : t.rlen.toNat ≤ s.params.rbufCap

/-- `n` steps, as long as each gives a next state. -/
def stepN : Nat → State → Out
  | 0, s => .next s
  | n + 1, s =>
    match step s with
    | .next t => stepN n t
    | o => o

/-! ### Reference meanings -/

/-- The Kraft sum of code lengths, scaled by `2^15` (R206). -/
def kraftSum (lens : List Nat) : Nat := (lens.map fun l => if l = 0 then 0 else 2 ^ (15 - l)).sum

/-- The canonical code of a symbol as stream bits (R201): within a length, ascending symbol order. -/
def symbolBits (lens : List Nat) (sym : Nat) : List Bool :=
  let l := lens.getD sym 0
  codeField l (firstCode lens l + (lens.take sym).count l)

/-- `n` symbols decoded one after another from one slot (R204). -/
def decodeMany (slot : Nat) : Nat → State → Res (List (BitVec 9))
  | 0, s => .ok [] s
  | n + 1, s =>
    (decodeOne slot s).andThen fun sym s =>
    (decodeMany slot n s).andThen fun rest s => .ok (sym :: rest) s

/-- The bytes of a stored block that begins at a byte boundary (R105). -/
def storedBlockBytes (final : Bool) (x : List Byte) : List Byte :=
  let n := BitVec.ofNat 16 x.length
  [(BitVec.ofBool final).setWidth 8, n.extractLsb' 0 8, n.extractLsb' 8 8, (~~~n).extractLsb' 0 8,
    (~~~n).extractLsb' 8 8] ++ x

/-- A zlib stream of stored blocks: the header bytes, the blocks that are not final, the final one. -/
def storedStream (cmf flg : Byte) (init : List (List Byte)) (last : List Byte) : List Byte :=
  cmf :: flg :: (init.flatMap (storedBlockBytes false) ++ storedBlockBytes true last)

/-- An item of compressed data (R110): a literal, or a match given by the index of its length symbol from 257 on,
the value of its extra field, its distance symbol and the value of that one's extra field. -/
inductive Item where
  | literal (b : Byte)
  | backref (li le di de : Nat)
  deriving DecidableEq, Repr

/-- The symbols and fields of an item are in their ranges. -/
def Item.ok : Item → Prop
  | .literal _ => True
  | .backref li le di de =>
    li < 29 ∧ le < 2 ^ (lengthTable.getD li (0, 0)).1 ∧ di < 30 ∧ de < 2 ^ (distanceTable.getD di (0, 0)).1

/-- The stream bits of an item in a fixed block (R110, R114, R115). -/
def Item.fixedBits : Item → List Bool
  | .literal b => fixedCode b.toNat
  | .backref li le di de =>
    fixedCode (257 + li) ++ integerField (lengthTable.getD li (0, 0)).1 le ++
      codeField 5 di ++ integerField (distanceTable.getD di (0, 0)).1 de

/-- What an item adds to the output `out` (R350 to R352): byte `i` of a match is the byte
`|out| - distance + (i mod distance)` of the output before it. None when the distance reaches too far back. -/
def Item.expand (out : List Byte) : Item → Option (List Byte)
  | .literal b => some (out ++ [b])
  | .backref li le di de =>
    let length := (lengthTable.getD li (0, 0)).2 + le
    let distance := (distanceTable.getD di (0, 0)).2 + de
    if distance ≤ out.length then
      some (out ++ (List.range length).map fun i => out.getD (out.length - distance + i % distance) 0)
    else none

/-- What items in order add to the output. -/
def expandItems (out : List Byte) : List Item → Option (List Byte)
  | [] => some out
  | x :: xs =>
    match x.expand out with
    | some out' => expandItems out' xs
    | none => none

/-- The code length of code-length symbol `sym` in a dynamic header whose 14 bits of counts begin at stream bit
`pos` and whose `HCLEN` is `n` (R106, R244). -/
def clField (s : State) (pos n sym : Nat) : Nat :=
  if clOrder.idxOf sym < n then integerSum s (pos + 14 + 3 * clOrder.idxOf sym) 3 else 0

/-- A code-length symbol's extra bits, base count and value (R108, R245 to R248). -/
def codeLengthRow (s : State) : Instr → Option (Nat × Nat × Nibble)
  | .clLen v => some (0, 1, v)
  | .clRep => some (2, 3, s.lens.get (s.work.produced - 1))
  | .clZrep3 => some (3, 3, 0)
  | .clZrep11 => some (7, 11, 0)
  | _ => none

/-- `LENS[a]` after `r` lengths of value `v` have been produced (R249). -/
def lensAfter (s : State) (r : Nat) (v : Nibble) (a : Nat) : Nibble :=
  if s.work.produced ≤ a ∧ a < s.work.produced + r then v else s.lens.get a

/-- The bytes of a chunk (R177). -/
def chunkBytes (c : Chunk) : List Byte :=
  let word (v : Word) : List Byte := [24, 16, 8, 0].map fun i => v.extractLsb' i 8
  word (BitVec.ofNat 32 c.length) ++ c.tag ++ c.payload ++ word c.crc

end Sys2Proof.Machine
end

