-- ==== Sys2Proof/Certificates/Slice0/Obligations.lean ====
section
/-! DEFINITION. The statements about the model. Each names the rules of spec/ it formalises. A value the spec calls
unspecified is left open in every statement (`res0 := t.res0` and the like). -/

open Sys2Proof Sys2Proof.Machine

/-! ### Reset, housekeeping, the command protocol -/

/-- R47, R450, R451: the block after hardware reset, at power-up and at any later time. Every cell is a free value;
nothing runs until the host writes `CMD`. The values of the model's own fields are not stated. -/
def Obligations.ResetValues : Prop :=
  RegistersAtReset State.reset ∧
  (∀ a, State.reset.ibuf.get a = Config.freeCell 8 State.reset.ibuf.gen a) ∧
  (∀ a, State.reset.obuf.get a = Config.freeCell 8 State.reset.obuf.gen a) ∧
  (∀ a, State.reset.rbuf.get a = Config.freeCell 8 State.reset.rbuf.gen a) ∧
  (∀ a, State.reset.lens.get a = Config.freeCell 4 State.reset.lens.gen a) ∧
  remainingBits State.reset = 0 ∧
  (∀ n, 0 < n → readCode n State.reset = .fail .insufficientBits State.reset ∧
    readReversed n State.reset = .fail .insufficientBits State.reset) ∧
  step State.reset = .next State.reset ∧
  ∀ s : State, ∃ t, hostAccess .hardwareReset s = .next t ∧ RegistersAtReset t ∧
    (∀ a, t.ibuf.get a = Config.freeCell 8 t.ibuf.gen a) ∧
    (∀ a, t.obuf.get a = Config.freeCell 8 t.obuf.gen a) ∧
    (∀ a, t.rbuf.get a = Config.freeCell 8 t.rbuf.gen a) ∧
    (∀ a, t.lens.get a = Config.freeCell 4 t.lens.gen a)

/-- The invariant of the model, R46 among it, holds after reset. -/
def Obligations.ResetMeetsInvariant : Prop := Inv State.reset

/-- R385: in every state, `FAULT` included. -/
def Obligations.ResetCommand : Prop :=
  ∀ s : State, ∃ t, exec .reset s = .next t ∧ RegistersAtReset t ∧
    t.ibuf = s.ibuf ∧ t.obuf = s.obuf ∧ t.rbuf = s.rbuf ∧ t.lens = s.lens ∧
    t.slotCL = s.slotCL ∧ t.slotLL = s.slotLL ∧ t.slotD = s.slotD ∧
    t.pending = s.pending ∧ t.hostData = s.hostData ∧ t.params = s.params

/-- R384, R386: `NOP` completes and is ignored in `FAULT`; `CLR` is accepted in every state. -/
def Obligations.NopAndClear : Prop :=
  ∀ s : State,
    (s.status ≠ .fault → exec .nop s = .next { s with status := .done, err := 0 }) ∧
    (s.status = .fault → exec .nop s = .next s) ∧
    exec .clr s = .next { s with status := .idle, err := 0, warn := 0 }

/-- R382: every opcode that is not one of the fourteen is decoded as illegal, raises `BadCommand` and changes
nothing else. -/
def Obligations.IllegalCommand : Prop :=
  ∀ (op : BitVec 8) (s : State), s.status ≠ .fault →
    op.toNat ∉ [0x00, 0x01, 0x02, 0x10, 0x11, 0x12, 0x13, 0x20, 0x21, 0x30, 0x31, 0x40, 0x41, 0x50] →
    decodeCommand op = .cmdIllegal op ∧
      exec (decodeCommand op) s = .next { s with status := .fault, err := 16 }

/-- R380, R381, R470: in `FAULT` only `RESET` and `CLR` do anything; every other command runs to its end, and ends
idle, done or in a fault with that fault's code. -/
def Obligations.CommandOutcome : Prop :=
  ∀ (i : Instr) (s : State), i.format = .cmd → Inv s → s.atHost →
    (s.status = .fault → i ≠ .reset → i ≠ .clr → exec i s = .next s) ∧
    (s.status ≠ .fault ∨ i = .reset ∨ i = .clr →
      ∃ t, exec i s = .next t ∧ t.atHost ∧
        ((t.status = .fault ∧ ∃ k : Failure, t.err = k.code) ∨
          ((i = .reset ∨ i = .clr) ∧ t.status = .idle ∧ t.err = 0) ∨
          (i ≠ .reset ∧ i ≠ .clr ∧ t.status = .done ∧ t.err = 0)))

/-- R46: its ranges hold after reset and after every command, failing or not. -/
def Obligations.CommandsKeepInvariant : Prop :=
  Ranges State.reset ∧ State.reset.status ≠ .busy ∧
  ∀ (i : Instr) (s : State), i.format = .cmd → Inv s → s.atHost →
    ∃ t, exec i s = .next t ∧ Inv t ∧ Ranges t ∧ t.status ≠ .busy

/-- R398: what each command leaves unchanged, whether it completes or fails (`RES0` by R398 and R421, log entry
10). -/
def Obligations.FrameTable : Prop :=
  ∀ (i : Instr) (s t : State), i.format = .cmd → exec i s = .next t →
    t.ibuf = s.ibuf ∧
    (i ≠ .reset → t.arg0 = s.arg0 ∧ t.arg1 = s.arg1 ∧ t.arg2 = s.arg2) ∧
    (i ∉ [.reset, .brRead, .brReadRev, .brRemaining, .htDecode, .crcCompute, .crcCheck] → t.res0 = s.res0) ∧
    (i ∉ [.reset, .brInit, .inflate] → t.brLen = s.brLen ∧ t.brOrder = s.brOrder) ∧
    (i ∉ [.reset, .brInit, .brRead, .brReadRev, .htDecode, .inflate] → t.brPos = s.brPos) ∧
    (i ∉ [.reset, .inflate, .obSetlen] → t.olen = s.olen) ∧
    (i ≠ .inflate → t.obuf = s.obuf) ∧
    (i ∉ [.reset, .defilter] → t.rlen = s.rlen) ∧
    (i ≠ .defilter → t.rbuf = s.rbuf) ∧
    (i ∉ [.reset, .inflate] → t.zhdr = s.zhdr) ∧
    (i ∉ [.reset, .clr, .inflate] → t.warn = s.warn) ∧
    (i ≠ .inflate → t.lens = s.lens) ∧
    (i ∉ [.htBuild, .inflate] → t.slotCL = s.slotCL ∧ t.slotLL = s.slotLL ∧ t.slotD = s.slotD) ∧
    (i ∉ [.reset, .htBuild, .inflate] → t.htValid = s.htValid)

/-- R412: no step sets `ERR` to the code of a kind that belongs to the host's container. -/
def Obligations.ContainerKindsNeverRaised : Prop :=
  ∀ s t : State, step s = .next t → s.err ∉ [1, 2, 4] → t.err ∉ [1, 2, 4]

/-! ### The bit reader -/

/-- R387, both outcomes. -/
def Obligations.BrInitCommand : Prop :=
  ∀ s : State, s.status ≠ .fault →
    (s.params.ibufCap < s.arg0.toNat → exec .brInit s = .next { s with status := .fault, err := 16 }) ∧
    (s.arg0.toNat ≤ s.params.ibufCap →
      exec .brInit s = .next { s with
        status := .done, err := 0, brLen := s.arg0, brOrder := s.arg1.extractLsb' 0 1, brPos := 0 })

/-- R141: the stream bit function in both orders. -/
def Obligations.StreamBitFunction : Prop :=
  ∀ (s : State) (k : Nat), k < 8 * s.brLen.toNat →
    (s.brOrder = 1 → (streamBit s k).toNat = ((s.ibuf.get (k / 8)).toNat >>> (k % 8)) % 2) ∧
    (s.brOrder = 0 → (streamBit s k).toNat = ((s.ibuf.get (k / 8)).toNat >>> (7 - k % 8)) % 2)

/-- R388, R142: the value of a normal read, the cursor, and both ways to fail. -/
def Obligations.BrReadCommand : Prop :=
  ∀ s : State, s.status ≠ .fault →
    let n := s.arg0.toNat
    (32 < n → exec .brRead s = .next { s with status := .fault, err := 16 }) ∧
    (n ≤ 32 → remainingBits s < n →
      ∃ t, exec .brRead s = .next t ∧
        t = { s with status := .fault, err := 11, res0 := t.res0, freeCtr := t.freeCtr }) ∧
    (n ≤ 32 → n ≤ remainingBits s →
      exec .brRead s = .next { s with
        status := .done, err := 0
        res0 := BitVec.ofNat 32 (codeSum s s.brPos.toNat n), brPos := s.brPos + BitVec.ofNat 32 n } ∧
      codeSum s s.brPos.toNat n < 2 ^ n)

/-- R389, R143: the same for a reversed read. -/
def Obligations.BrReadRevCommand : Prop :=
  ∀ s : State, s.status ≠ .fault →
    let n := s.arg0.toNat
    (32 < n → exec .brReadRev s = .next { s with status := .fault, err := 16 }) ∧
    (n ≤ 32 → remainingBits s < n →
      ∃ t, exec .brReadRev s = .next t ∧
        t = { s with status := .fault, err := 11, res0 := t.res0, freeCtr := t.freeCtr }) ∧
    (n ≤ 32 → n ≤ remainingBits s →
      exec .brReadRev s = .next { s with
        status := .done, err := 0
        res0 := BitVec.ofNat 32 (integerSum s s.brPos.toNat n), brPos := s.brPos + BitVec.ofNat 32 n } ∧
      integerSum s s.brPos.toNat n < 2 ^ n)

/-- R390, R144. -/
def Obligations.BrRemainingCommand : Prop :=
  ∀ s : State, s.status ≠ .fault →
    exec .brRemaining s = .next { s with
      status := .done, err := 0, res0 := BitVec.ofNat 32 (8 * s.brLen.toNat - s.brPos.toNat) }

/-- R145: the two reads from one cursor are bit reversals of each other, and what a read of 8 bits at a byte
boundary returns in each order. -/
def Obligations.ReadsAreReversed : Prop :=
  ∀ s : State, s.status ≠ .fault → 1 ≤ s.arg0.toNat → s.arg0.toNat ≤ 32 → s.arg0.toNat ≤ remainingBits s →
    ∃ t u, exec .brRead s = .next t ∧ exec .brReadRev s = .next u ∧ t.brPos = u.brPos ∧
      u.res0.setWidth s.arg0.toNat = (t.res0.setWidth s.arg0.toNat).reverse ∧
      (s.arg0 = 8 → s.brPos.toNat % 8 = 0 →
        let b := s.ibuf.get (s.brPos.toNat / 8)
        (s.brOrder = 1 → u.res0 = b.setWidth 32 ∧ t.res0 = b.reverse.setWidth 32) ∧
        (s.brOrder = 0 → t.res0 = b.setWidth 32 ∧ u.res0 = b.reverse.setWidth 32))

/-! ### The CRC engine -/

/-- R164, R395. -/
def Obligations.CrcComputeCommand : Prop :=
  ∀ s : State, s.status ≠ .fault →
    (s.params.ibufCap < s.arg0.toNat + s.arg1.toNat →
      exec .crcCompute s = .next { s with status := .fault, err := 16 }) ∧
    (s.arg0.toNat + s.arg1.toNat ≤ s.params.ibufCap →
      exec .crcCompute s = .next { s with
        status := .done, err := 0
        res0 := crc32 ((List.range s.arg1.toNat).map fun i => s.ibuf.get (s.arg0.toNat + i)) }) ∧
    crc32 [] = 0

/-- R165, R396: the stored value is the big-endian number of the four bytes after the message; `RES0` holds the
computed CRC also after `CrcMismatch`. -/
def Obligations.CrcCheckCommand : Prop :=
  ∀ s : State, s.status ≠ .fault →
    let p := s.arg0.toNat + s.arg1.toNat
    let r := crc32 ((List.range s.arg1.toNat).map fun i => s.ibuf.get (s.arg0.toNat + i))
    let stored := (s.ibuf.get p).toNat * 2 ^ 24 + (s.ibuf.get (p + 1)).toNat * 2 ^ 16 +
      (s.ibuf.get (p + 2)).toNat * 2 ^ 8 + (s.ibuf.get (p + 3)).toNat
    (s.params.ibufCap < p + 4 → exec .crcCheck s = .next { s with status := .fault, err := 16 }) ∧
    (p + 4 ≤ s.params.ibufCap → r.toNat = stored →
      exec .crcCheck s = .next { s with status := .done, err := 0, res0 := r }) ∧
    (p + 4 ≤ s.params.ibufCap → r.toNat ≠ stored →
      exec .crcCheck s = .next { s with status := .fault, err := 3, res0 := r })

/-- R162: the reflected bit-serial form gives the CRC of rule R161 on every message. -/
def Obligations.CrcReflectedForm : Prop := ∀ m : List Byte, crc32 m = crc32Reflected m

/-! ### The Huffman unit -/

/-- R391: the checks, the build, and `EmptyAlphabet` with the slot's content unspecified. -/
def Obligations.HtBuildCommand : Prop :=
  ∀ s : State, s.status ≠ .fault →
    let slot := s.arg0.toNat
    let n := s.arg1.toNat
    let lens := (List.range n).map fun a => (s.lens.get a).toNat
    (2 < slot ∨ slotSize slot < n → exec .htBuild s = .next { s with status := .fault, err := 16 }) ∧
    (slot ≤ 2 → n ≤ slotSize slot → (∃ l ∈ lens, l ≠ 0) →
      ∃ t tab, exec .htBuild s = .next t ∧ buildTable lens = some tab ∧
        t = { s with
          status := .done, err := 0, htValid := t.htValid
          slotCL := t.slotCL, slotLL := t.slotLL, slotD := t.slotD } ∧
        (∀ k, k ≤ 2 → slotTable k t = if k = slot then some tab else slotTable k s) ∧
        ∀ k, slotValid k t = (decide (k = slot) || slotValid k s)) ∧
    (slot ≤ 2 → n ≤ slotSize slot → (∀ l ∈ lens, l = 0) →
      ∃ t, exec .htBuild s = .next t ∧
        t = { s with
          status := .fault, err := 8, htValid := t.htValid
          slotCL := t.slotCL, slotLL := t.slotLL, slotD := t.slotD } ∧
        (∀ k, k ≤ 2 → k ≠ slot → slotTable k t = slotTable k s) ∧
        ∀ k, slotValid k t = (!decide (k = slot) && slotValid k s))

/-- R201: canonical code assignment. A key is in the map exactly when its code is the first code of its length plus
the number of smaller symbols of that length. -/
def Obligations.CanonicalCodes : Prop :=
  ∀ lens : List Nat, (∀ l ∈ lens, l ≤ 15) → lens.length ≤ 288 →
    firstCode lens 1 = 0 ∧
    (∀ l, 1 ≤ l → firstCode lens (l + 1) = (firstCode lens l + lens.count l) * 2) ∧
    (buildTable lens = none ↔ ∀ l ∈ lens, l = 0) ∧
    ∀ tab, buildTable lens = some tab →
      tab.maxlen ∈ lens ∧ (∀ l ∈ lens, l ≤ tab.maxlen) ∧
      ∀ (len code : Nat) (sym : BitVec 9), tab.find len code = some sym ↔
        len ≠ 0 ∧ lens[sym.toNat]? = some len ∧
          code = firstCode lens len + (lens.take sym.toNat).count len

/-- R392, R204: one symbol is decoded by the shortest prefix of the stream that is a key, or the stream ends
first (R421: then `RES0` and, in its range, `BR_POS` are unspecified). -/
def Obligations.HtDecodeCommand : Prop :=
  ∀ s : State, Inv s → s.status ≠ .fault →
    let slot := s.arg0.toNat
    (2 < slot ∨ slotValid slot s = false →
      exec .htDecode s = .next { s with status := .fault, err := 16 }) ∧
    ∀ tab, slot ≤ 2 → slotValid slot s = true → slotTable slot s = some tab →
      (∀ (m : Nat) (sym : BitVec 9), 1 ≤ m → m ≤ remainingBits s →
        tab.find m (codeSum s s.brPos.toNat m) = some sym →
        (∀ j, 1 ≤ j → j < m → tab.find j (codeSum s s.brPos.toNat j) = none) →
        exec .htDecode s = .next { s with
          status := .done, err := 0, res0 := sym.setWidth 32, brPos := s.brPos + BitVec.ofNat 32 m }) ∧
      ((∀ m, 1 ≤ m → m ≤ remainingBits s → tab.find m (codeSum s s.brPos.toNat m) = none) →
        ∃ t, exec .htDecode s = .next t ∧
          t = { s with
            status := .fault, err := 7, res0 := t.res0, brPos := t.brPos, freeCtr := t.freeCtr } ∧
          s.brPos.toNat ≤ t.brPos.toNat ∧ t.brPos.toNat ≤ 8 * s.brLen.toNat)

/-- R206, first half: with a Kraft sum of at most 1 every code fits its length and no code is a prefix of
another. -/
def Obligations.PrefixFreeCodes : Prop :=
  ∀ lens : List Nat, (∀ l ∈ lens, l ≤ 15) → kraftSum lens ≤ 2 ^ 15 →
    ∀ a, a < lens.length → lens.getD a 0 ≠ 0 →
      firstCode lens (lens.getD a 0) + (lens.take a).count (lens.getD a 0) < 2 ^ lens.getD a 0 ∧
      ∀ b, b < lens.length → lens.getD b 0 ≠ 0 → a ≠ b → ¬ symbolBits lens a <+: symbolBits lens b

/-- R206, second half: with a Kraft sum of at most 1, decoding the codes of `N` symbols one after another gives
those symbols, in order. -/
def Obligations.HuffmanRoundTrip : Prop :=
  ∀ (lens : List Nat) (tab : Table) (slot : Nat) (syms : List (BitVec 9)) (s : State),
    (∀ l ∈ lens, l ≤ 15) → lens.length ≤ 288 → kraftSum lens ≤ 2 ^ 15 → buildTable lens = some tab →
    Inv s → slot ≤ 2 → slotTable slot s = some tab → (∀ sym ∈ syms, lens.getD sym.toNat 0 ≠ 0) →
    let bits := syms.flatMap fun sym => symbolBits lens sym.toNat
    StreamBegins s bits → decodeMany slot syms.length s = .ok syms (advance bits.length s)

/-- R204, R249, R255, R257: at each level whose symbols are Huffman codes, the shortest prefix of the stream that is a
key of that level's slot (0 for code lengths, 1 for literals and lengths, 2 for distances) fetches the instruction of
its symbol, and only the cursor moves, past that prefix; with no such prefix the step takes `TruncatedHuffmanCode`,
also when no bit is left (R413). R115, R255: in a fixed block a distance symbol is five bits, the first most
significant, and fewer are `InsufficientBits`. R114, R257: in a fixed block the codes of the table of R114 fetch their
symbols. -/
def Obligations.FixedCodesFetched : Prop :=
  (∀ (s : State) (slot : Nat) (tab : Table), Inv s →
    (s.work.level = .clsym ∧ slot = 0) ∨ (s.work.level = .llsym ∧ slot = 1) ∨
      (s.work.level = .dsym ∧ s.work.fixedDist = false ∧ slot = 2) →
    slotTable slot s = some tab →
    (∀ (m : Nat) (sym : BitVec 9), 1 ≤ m → m ≤ remainingBits s →
      tab.find m (codeSum s s.brPos.toNat m) = some sym →
      (∀ j, 1 ≤ j → j < m → tab.find j (codeSum s s.brPos.toNat j) = none) →
      ∃ i, decode s.work.level sym.toNat = .ok i ∧
        fetch s = some (.ok i { s with brPos := s.brPos + BitVec.ofNat 32 m })) ∧
    ((∀ m, 1 ≤ m → m ≤ remainingBits s → tab.find m (codeSum s s.brPos.toNat m) = none) →
      ∃ t, step s = .next t ∧ AfterInflateFault .truncatedHuffmanCode s t)) ∧
  (∀ s : State, Inv s → s.work.level = .dsym → s.work.fixedDist = true →
    (5 ≤ remainingBits s → ∃ i, decode .dsym (codeSum s s.brPos.toNat 5) = .ok i ∧
      fetch s = some (.ok i { s with brPos := s.brPos + 5 })) ∧
    (remainingBits s < 5 → ∃ t, step s = .next t ∧ AfterInflateFault .insufficientBits s t)) ∧
  ∀ (s : State) (n : Nat), Inv s → s.work.level = .llsym → s.slotLL = buildTable fixedLens → n < 288 →
    StreamBegins s (fixedCode n) →
    fetch s = some (.ok (decodeLitLen (BitVec.ofNat 9 n)) (advance (fixedCode n).length s))

/-! ### INFLATE as a whole -/

/-- R393, R221, R222: the operand check, a stream too short for its header, and a preset dictionary. -/
def Obligations.InflateHeaderFailures : Prop :=
  ∀ s : State, s.params.wf = true → s.status ≠ .fault →
    let entered : State := { s with brLen := s.arg0, brOrder := 1, htValid := 0 }
    (s.params.ibufCap < s.arg0.toNat → exec .inflate s = .next { s with status := .fault, err := 16 }) ∧
    (s.arg0.toNat < 2 → ∃ t, exec .inflate s = .next t ∧ AfterInflateFault .insufficientBits entered t) ∧
    (2 ≤ s.arg0.toNat → s.arg0.toNat ≤ s.params.ibufCap → (s.ibuf.get 1).getLsbD 5 = true →
      ∃ t, exec .inflate s = .next t ∧ AfterInflateFault .unsupportedFeature entered t)

/-- R398, R421 (the row of `INFLATE`), R36, R393: what `INFLATE` leaves as it was, what it defines whether or not
it fails, and `ZHDR` when it completes. -/
def Obligations.InflateDefines : Prop :=
  ∀ s t : State, s.params.wf = true → s.status ≠ .fault → s.arg0.toNat ≤ s.params.ibufCap →
    exec .inflate s = .next t →
    t.brLen = s.arg0 ∧ t.brOrder = 1 ∧ t.htValid = 0 ∧ (s.warn = 1 → t.warn = 1) ∧ t.res0 = s.res0 ∧
    t.rbuf = s.rbuf ∧ t.rlen = s.rlen ∧ t.ibuf = s.ibuf ∧ t.params = s.params ∧ t.pending = s.pending ∧
    (t.status = .done → t.zhdr = s.ibuf.get 1 ++ s.ibuf.get 0) ∧
    (t.status = .fault → t.err ∈ [5, 6, 7, 8, 9, 11, 12, 13, 14, 15] ∧
      (t.err = 14 → s.params.strictNlen = true))

/-- R220, R230 to R233, R225, R354: a zlib stream of stored blocks, with anything after it, decodes to the bytes in
its blocks. -/
def Obligations.StoredStreamDecodes : Prop :=
  ∀ (s : State) (cmf flg : Byte) (init : List (List Byte)) (last : List Byte),
    let bytes := storedStream cmf flg init last
    let x := init.flatten ++ last
    s.params.wf = true → s.status ≠ .fault → s.arg0.toNat ≤ s.params.ibufCap →
    flg.getLsbD 5 = false → (∀ b ∈ init, b.length ≤ 65535) → last.length ≤ 65535 →
    bytes.length ≤ s.arg0.toNat → x.length ≤ s.params.obufCap →
    (∀ i, i < bytes.length → s.ibuf.get i = bytes.getD i 0) →
    ∃ t, exec .inflate s = .next t ∧ t.status = .done ∧ t.err = 0 ∧ t.olen.toNat = x.length ∧
      (∀ i, i < x.length → t.obuf.get i = x.getD i 0) ∧ t.brPos.toNat = 8 * bytes.length ∧
      t.zhdr = flg ++ cmf ∧ t.brLen = s.arg0 ∧ t.brOrder = 1 ∧ t.htValid = 0 ∧ t.warn = s.warn

/-- R235, R257, R351, R352, R354: a zlib stream of one fixed block decodes to what its literals and matches
expand to. -/
def Obligations.FixedStreamDecodes : Prop :=
  ∀ (s : State) (items : List Item) (x : List Byte),
    let bits := [true, true, false] ++ items.flatMap Item.fixedBits ++ fixedCode 256
    s.params.wf = true → s.status ≠ .fault → s.arg0.toNat ≤ s.params.ibufCap →
    (s.ibuf.get 1).getLsbD 5 = false → (∀ y ∈ items, y.ok) → expandItems [] items = some x →
    x.length ≤ s.params.obufCap → 16 + bits.length ≤ 8 * s.arg0.toNat →
    (∀ i, i < bits.length → (s.ibuf.get ((16 + i) / 8)).getLsbD ((16 + i) % 8) = bits.getD i false) →
    ∃ t, exec .inflate s = .next t ∧ t.status = .done ∧ t.err = 0 ∧ t.olen.toNat = x.length ∧
      (∀ i, i < x.length → t.obuf.get i = x.getD i 0) ∧ t.brPos.toNat = 16 + bits.length

/-- R3, R381: the one atomic `INFLATE` is its stream's instructions, run step by step after the zlib header. -/
def Obligations.InflateIsItsStream : Prop :=
  ∀ s s' : State, Inv s → s.atHost → s.status ≠ .fault → s.arg0.toNat ≤ s.params.ibufCap →
    zlibHeader (enterInflate s) = .ok () s' →
    ∃ (n : Nat) (t : State), exec .inflate s = .next t ∧ stepN n (enterBlocks s') = .next t ∧ t.atHost

/-- R24, R258, R353: while `INFLATE` runs, every instruction that neither ends the command nor fails moves the cursor
forward, keeps every byte below the old `OLEN`, and never shrinks the output. -/
def Obligations.StreamProgress : Prop :=
  ∀ s t : State, Inv s → s.work.level ≠ .cmd → s.work.level ≠ .ftag → step s = .next t → t.status = .busy →
    s.brPos.toNat < t.brPos.toNat ∧ t.brPos.toNat ≤ 8 * t.brLen.toNat ∧ s.olen.toNat ≤ t.olen.toNat ∧
      ∀ a, a < s.olen.toNat → t.obuf.get a = s.obuf.get a

/-! ### DEFLATE blocks -/

/-- R226, R104: three bits select the block; fewer are `InsufficientBits`. -/
def Obligations.BlockHeaderFetched : Prop :=
  ∀ s : State, Inv s → s.work.level = .blkhdr →
    (∀ f b1 b2 : Bool, StreamBegins s [f, b1, b2] →
      fetch s = some (.ok
        (if b1.toNat + 2 * b2.toNat = 0 then .blkStored f
          else if b1.toNat + 2 * b2.toNat = 1 then .blkFixed f
          else if b1.toNat + 2 * b2.toNat = 2 then .blkDynamic f else .blkReserved f)
        { s with brPos := s.brPos + 3 })) ∧
    (remainingBits s < 3 → ∃ t, step s = .next t ∧ AfterInflateFault .insufficientBits s t)

/-- R230 to R234, R225, R228: a stored block from its alignment to its end, `j` the byte at which `LEN` begins. -/
def Obligations.StoredBlockRuns : Prop :=
  ∀ (s : State) (final : Bool), s.params.wf = true → Ranges s → s.brOrder = 1 →
    let j := (s.brPos.toNat + 7) / 8
    let len := (s.ibuf.get j).toNat + 256 * (s.ibuf.get (j + 1)).toNat
    let nlen := (s.ibuf.get (j + 2)).toNat + 256 * (s.ibuf.get (j + 3)).toNat
    j + 4 + len ≤ s.brLen.toNat → s.olen.toNat + len ≤ s.params.obufCap →
    (len = nlen ^^^ 0xFFFF ∨ s.params.strictNlen = false) →
    ∃ t, exec (.blkStored final) s = .next t ∧
      t = { s with
        brPos := t.brPos, olen := t.olen, obuf := t.obuf, warn := t.warn, work := t.work, status := t.status
        err := t.err, lens := t.lens, slotCL := t.slotCL, slotLL := t.slotLL, slotD := t.slotD
        freeCtr := t.freeCtr } ∧
      t.brPos.toNat = 8 * (j + 4 + len) ∧ t.olen.toNat = s.olen.toNat + len ∧
      (∀ i, i < len → t.obuf.get (s.olen.toNat + i) = s.ibuf.get (j + 4 + i)) ∧
      (∀ a, a < s.olen.toNat ∨ s.olen.toNat + len ≤ a → t.obuf.get a = s.obuf.get a) ∧
      t.warn = (if len = nlen ^^^ 0xFFFF then s.warn else 1) ∧
      (final = false → t.work = { Work.idle with level := .blkhdr } ∧ t.status = s.status ∧ t.err = s.err ∧
        t.lens = s.lens ∧ t.slotCL = s.slotCL ∧ t.slotLL = s.slotLL ∧ t.slotD = s.slotD) ∧
      (final = true → t.work = Work.idle ∧ t.status = .done ∧ t.err = 0)

/-- R231 to R234, R350: the ways a stored block fails, in their order; `WARN.NLEN` may have been set before the
fault. That `StoredLenMismatch` leaves it as it was is the model's reading (log entry 12). -/
def Obligations.StoredBlockFails : Prop :=
  ∀ (s : State) (final : Bool), s.params.wf = true → Ranges s → s.brOrder = 1 →
    let j := (s.brPos.toNat + 7) / 8
    let len := (s.ibuf.get j).toNat + 256 * (s.ibuf.get (j + 1)).toNat
    let nlen := (s.ibuf.get (j + 2)).toNat + 256 * (s.ibuf.get (j + 3)).toNat
    let warned : State := if len = nlen ^^^ 0xFFFF then s else { s with warn := 1 }
    (s.brLen.toNat < j + 4 →
      ∃ t, exec (.blkStored final) s = .next t ∧ AfterInflateFault .insufficientBits s t) ∧
    (j + 4 ≤ s.brLen.toNat → len ≠ nlen ^^^ 0xFFFF → s.params.strictNlen = true →
      ∃ t, exec (.blkStored final) s = .next t ∧ AfterInflateFault .storedLenMismatch s t) ∧
    (j + 4 ≤ s.brLen.toNat → (len = nlen ^^^ 0xFFFF ∨ s.params.strictNlen = false) →
      s.brLen.toNat < j + 4 + len → s.olen.toNat + (s.brLen.toNat - (j + 4)) ≤ s.params.obufCap →
      ∃ t, exec (.blkStored final) s = .next t ∧ AfterInflateFault .insufficientBits warned t) ∧
    (j + 4 ≤ s.brLen.toNat → (len = nlen ^^^ 0xFFFF ∨ s.params.strictNlen = false) →
      s.params.obufCap < s.olen.toNat + len → s.params.obufCap < s.olen.toNat + (s.brLen.toNat - (j + 4)) →
      ∃ t, exec (.blkStored final) s = .next t ∧ AfterInflateFault .bufferOverflow warned t)

/-- R235: a fixed block builds the fixed table and enters the symbol loop with 5-bit distance codes. -/
def Obligations.FixedBlockEntered : Prop :=
  ∀ (s : State) (final : Bool), ∃ tab, buildTable fixedLens = some tab ∧
    exec (.blkFixed final) s = .next { s with
      slotLL := some tab, work := { Work.idle with level := .llsym, bfinal := final, fixedDist := true } }

/-- R240, R244: the counts, the code-length code and slot 0 of a dynamic block, and the ways its header fails. -/
def Obligations.DynamicHeaderRead : Prop :=
  ∀ (s : State) (final : Bool), s.params.wf = true → Ranges s →
    let pos := s.brPos.toNat
    let n := 4 + integerSum s (pos + 10) 4
    let cl := (List.range 19).map (clField s pos n)
    (14 + 3 * n ≤ remainingBits s → (∃ l ∈ cl, l ≠ 0) →
      ∃ tab, buildTable cl = some tab ∧
        exec (.blkDynamic final) s = .next { s with
          brPos := s.brPos + BitVec.ofNat 32 (14 + 3 * n), slotCL := some tab
          work := { Work.idle with
            level := .clsym, bfinal := final
            hlit := 257 + integerSum s pos 5, hdist := 1 + integerSum s (pos + 5) 5 } }) ∧
    (14 + 3 * n ≤ remainingBits s → (∀ l ∈ cl, l = 0) →
      ∃ t, exec (.blkDynamic final) s = .next t ∧ AfterInflateFault .emptyAlphabet s t) ∧
    (remainingBits s < 14 + 3 * n →
      ∃ t, exec (.blkDynamic final) s = .next t ∧ AfterInflateFault .insufficientBits s t)

/-- R245 to R249: a code-length symbol before the end of the loop: `r` lengths of its value are produced. -/
def Obligations.CodeLengthsProduced : Prop :=
  ∀ (i : Instr) (s : State) (extra base : Nat) (v : Nibble), codeLengthRow s i = some (extra, base, v) →
    s.params.wf = true → Ranges s → (i = .clRep → 0 < s.work.produced) → extra ≤ remainingBits s →
    let r := base + integerSum s s.brPos.toNat extra
    s.work.produced + r < s.work.hlit + s.work.hdist →
    ∃ t, exec i s = .next t ∧
      t = { s with
        brPos := s.brPos + BitVec.ofNat 32 extra, lens := t.lens
        work := { s.work with produced := s.work.produced + r } } ∧
      ∀ a, t.lens.get a = lensAfter s r v a

/-- R249, R250: the code-length symbol that produces the last length: both tables are built and the symbol loop is
entered with Huffman-coded distances; an alphabet with no code is `EmptyAlphabet`. -/
def Obligations.CodeLengthsComplete : Prop :=
  ∀ (i : Instr) (s : State) (extra base : Nat) (v : Nibble), codeLengthRow s i = some (extra, base, v) →
    s.params.wf = true → Ranges s → (i = .clRep → 0 < s.work.produced) → extra ≤ remainingBits s →
    let r := base + integerSum s s.brPos.toNat extra
    let ll := (List.range s.work.hlit).map fun a => (lensAfter s r v a).toNat
    let d := (List.range s.work.hdist).map fun a => (lensAfter s r v (s.work.hlit + a)).toNat
    s.work.produced + r = s.work.hlit + s.work.hdist →
    ((∃ l ∈ ll, l ≠ 0) → (∃ l ∈ d, l ≠ 0) →
      ∃ t tl td, exec i s = .next t ∧ buildTable ll = some tl ∧ buildTable d = some td ∧
        t = { s with
          brPos := s.brPos + BitVec.ofNat 32 extra, lens := t.lens, slotLL := some tl, slotD := some td
          work := { Work.idle with level := .llsym, bfinal := s.work.bfinal, fixedDist := false } } ∧
        ∀ a, t.lens.get a = lensAfter s r v a) ∧
    ((∀ l ∈ ll, l = 0) ∨ (∀ l ∈ d, l = 0) →
      ∃ t, exec i s = .next t ∧ AfterInflateFault .emptyAlphabet s t)

/-- R246, R249, R430: a repeat with no previous length, an extra field that is not there, and a repeat past the end,
in this order. -/
def Obligations.CodeLengthFailures : Prop :=
  ∀ (i : Instr) (s : State) (extra base : Nat) (v : Nibble), codeLengthRow s i = some (extra, base, v) →
    s.params.wf = true → Ranges s →
    (i = .clRep → s.work.produced = 0 →
      ∃ t, exec i s = .next t ∧ AfterInflateFault .invalidCodeLengths s t) ∧
    ((i = .clRep → 0 < s.work.produced) → remainingBits s < extra →
      ∃ t, exec i s = .next t ∧ AfterInflateFault .insufficientBits s t) ∧
    ((i = .clRep → 0 < s.work.produced) → extra ≤ remainingBits s →
      s.work.hlit + s.work.hdist < s.work.produced + (base + integerSum s s.brPos.toNat extra) →
      ∃ t, exec i s = .next t ∧ AfterInflateFault .invalidCodeLengths s t)

/-! ### Symbols of compressed data -/

/-- R251, R350: a literal is appended at `OLEN`, every other byte is kept; a full buffer is `BufferOverflow`. -/
def Obligations.LiteralAppended : Prop :=
  ∀ (v : BitVec 8) (s : State),
    (s.olen.toNat < s.params.obufCap →
      ∃ t, exec (.lit v) s = .next t ∧ t = { s with obuf := t.obuf, olen := s.olen + 1 } ∧
        t.obuf.get s.olen.toNat = v ∧ ∀ a, a ≠ s.olen.toNat → t.obuf.get a = s.obuf.get a) ∧
    (s.olen.toNat = s.params.obufCap →
      ∃ t, exec (.lit v) s = .next t ∧ AfterInflateFault .bufferOverflow s t)

/-- R252, R228, R225: the end of a block leads to the next header, or, after the final block, ends the command
with `LENS` and the slots unspecified. -/
def Obligations.EndOfBlock : Prop :=
  ∀ s : State,
    (s.work.bfinal = false →
      exec .eob s = .next { s with work := { Work.idle with level := .blkhdr } }) ∧
    (s.work.bfinal = true →
      ∃ t, exec .eob s = .next t ∧
        t = { s with
          status := .done, err := 0, lens := t.lens, slotCL := t.slotCL, slotLL := t.slotLL, slotD := t.slotD
          work := Work.idle, freeCtr := t.freeCtr })

/-- R253 with the table of R111 (R260 to R288): every length symbol reads its extra field, adds its base, and the
distance symbol is read next. -/
def Obligations.LengthSymbols : Prop :=
  ∀ (i : Instr) (extra base : Nat), (i, (extra, base)) ∈ lengthInstrs.zip lengthTable →
    ∀ s : State, s.params.wf = true → Ranges s →
      (extra ≤ remainingBits s →
        exec i s = .next { s with
          brPos := s.brPos + BitVec.ofNat 32 extra
          work := { s.work with level := .dsym, length := base + integerSum s s.brPos.toNat extra } } ∧
        3 ≤ base + integerSum s s.brPos.toNat extra ∧ base + integerSum s s.brPos.toNat extra ≤ 258) ∧
      (remainingBits s < extra →
        ∃ t, exec i s = .next t ∧ AfterInflateFault .insufficientBits s t)

/-- R255 with the table of R112 (R290 to R319), R351, R352: every distance symbol reads its extra field, adds its
base and copies; byte `j` of the copy is byte `OLEN - distance + (j mod distance)` of the output before it. -/
def Obligations.DistanceSymbols : Prop :=
  ∀ (i : Instr) (extra base : Nat), (i, (extra, base)) ∈ distanceInstrs.zip distanceTable →
    ∀ s : State, s.params.wf = true → Ranges s → extra ≤ remainingBits s →
      let distance := base + integerSum s s.brPos.toNat extra
      1 ≤ distance ∧ distance ≤ 32768 ∧
      (distance ≤ s.olen.toNat → s.olen.toNat + s.work.length ≤ s.params.obufCap →
        ∃ t, exec i s = .next t ∧
          t = { s with
            brPos := s.brPos + BitVec.ofNat 32 extra, obuf := t.obuf
            olen := s.olen + BitVec.ofNat 32 s.work.length
            work := { s.work with level := .llsym, length := 0 } } ∧
          (∀ j, j < s.work.length →
            t.obuf.get (s.olen.toNat + j) = s.obuf.get (s.olen.toNat - distance + j % distance)) ∧
          ∀ a, a < s.olen.toNat ∨ s.olen.toNat + s.work.length ≤ a → t.obuf.get a = s.obuf.get a)

/-- R255, R351, R430: the ways a distance symbol fails, in their order. -/
def Obligations.DistanceFailures : Prop :=
  ∀ (i : Instr) (extra base : Nat), (i, (extra, base)) ∈ distanceInstrs.zip distanceTable →
    ∀ s : State, s.params.wf = true → Ranges s →
      let distance := base + integerSum s s.brPos.toNat extra
      (remainingBits s < extra →
        ∃ t, exec i s = .next t ∧ AfterInflateFault .insufficientBits s t) ∧
      (extra ≤ remainingBits s → s.olen.toNat < distance →
        ∃ t, exec i s = .next t ∧ AfterInflateFault .backrefOutOfRange s t) ∧
      (extra ≤ remainingBits s → distance ≤ s.olen.toNat → s.params.obufCap < s.olen.toNat + s.work.length →
        ∃ t, exec i s = .next t ∧ AfterInflateFault .bufferOverflow s t)

/-- R254, R256, R227: the symbols and the block type with no meaning. -/
def Obligations.InvalidSymbols : Prop :=
  ∀ (s : State) (b : Bool),
    (∀ i ∈ [Instr.llInvalid286, Instr.llInvalid287, Instr.dInvalid b],
      ∃ t, exec i s = .next t ∧ AfterInflateFault .invalidSymbol s t) ∧
    ∃ t, exec (.blkReserved b) s = .next t ∧ AfterInflateFault .reservedBlockType s t

/-- R122, R249, R257: no table produces the symbol numbers 288 to 511 and 19 to 31, so none is ever fetched. Their
meanings are the model's reading (log entry 9): they take the last branch of their loop. -/
def Obligations.UnreachableSymbols : Prop :=
  (∀ (s t : State) (i : Instr), Inv s → fetch s = some (.ok i t) →
    i.wf = true ∧ (∀ sym, i ≠ .llUnreachable sym) ∧ ∀ sym, i ≠ .clUnreachable sym) ∧
  ∀ s : State,
    (∀ sym : BitVec 9, ∃ t, exec (.llUnreachable sym) s = .next t ∧ AfterInflateFault .invalidSymbol s t) ∧
    ∀ sym : BitVec 5, s.params.wf = true → Ranges s → 7 ≤ remainingBits s →
      let r := 11 + integerSum s s.brPos.toNat 7
      s.work.produced + r < s.work.hlit + s.work.hdist →
      ∃ t, exec (.clUnreachable sym) s = .next t ∧
        t = { s with
          brPos := s.brPos + 7, lens := t.lens
          work := { s.work with produced := s.work.produced + r } } ∧
        ∀ a, t.lens.get a = lensAfter s r 0 a

/-! ### The output buffer's length and the defilter -/

/-- R394, both outcomes. -/
def Obligations.ObSetlenCommand : Prop :=
  ∀ s : State, s.status ≠ .fault →
    (s.params.obufCap < s.arg0.toNat → exec .obSetlen s = .next { s with status := .fault, err := 16 }) ∧
    (s.arg0.toNat ≤ s.params.obufCap →
      exec .obSetlen s = .next { s with status := .done, err := 0, olen := s.arg0 })

/-- R360, R397: the operand checks in their order; a failed one changes nothing but `STATUS` and `ERR`. -/
def Obligations.DefilterChecks : Prop :=
  ∀ s : State, s.status ≠ .fault →
    let rb := s.arg0.toNat
    let n := s.arg1.toNat
    let ch := s.arg2.toNat % 256
    (rb = 0 ∨ ch = 0 ∨ s.olen.toNat < n * rb →
      exec .defilter s = .next { s with status := .fault, err := 16 }) ∧
    (rb ≠ 0 → ch ≠ 0 → n * rb ≤ s.olen.toNat → s.params.rbufCap < n * (rb - 1) →
      exec .defilter s = .next { s with status := .fault, err := 15 })

/-- R363 with the neighbours of R362 and the predictors of R364 to R368, R371: every reconstructed byte is the
filtered byte plus its predictor, and nothing else of the block changes. -/
def Obligations.DefilterReconstructs : Prop :=
  ∀ s : State, s.status ≠ .fault →
    let rb := s.arg0.toNat
    let n := s.arg1.toNat
    rb ≠ 0 → s.arg2.toNat % 256 ≠ 0 → n * rb ≤ s.olen.toNat → n * (rb - 1) ≤ s.params.rbufCap →
    (∀ r, r < n → (s.obuf.get (r * rb)).toNat ≤ 4) →
    ∃ t, exec .defilter s = .next t ∧
      t = { s with
        status := .done, err := 0, rbuf := t.rbuf, rlen := BitVec.ofNat 32 (n * (rb - 1)), work := Work.idle } ∧
      (∀ r i, r < n → i < rb - 1 →
        (t.rbuf.get (r * (rb - 1) + i)).toNat =
          ((s.obuf.get (r * rb + 1 + i)).toNat +
            predictorOf (s.obuf.get (r * rb)).toNat (leftOf t r i) (upOf t r i) (upLeftOf t r i)) % 256) ∧
      ∀ a, n * (rb - 1) ≤ a → t.rbuf.get a = s.rbuf.get a

/-- R369: an illegal tag, wherever it stands, is `InvalidFilterType`. -/
def Obligations.IllegalFilterTag : Prop :=
  (∀ s : State, s.status ≠ .fault →
    let rb := s.arg0.toNat
    let n := s.arg1.toNat
    rb ≠ 0 → s.arg2.toNat % 256 ≠ 0 → n * rb ≤ s.olen.toNat → n * (rb - 1) ≤ s.params.rbufCap →
    (∃ r, r < n ∧ 4 < (s.obuf.get (r * rb)).toNat) →
    ∃ t, exec .defilter s = .next t ∧ AfterRowsFault s t) ∧
  ∀ (tag : BitVec 8) (s : State), ∃ t, exec (.ftIllegal tag) s = .next t ∧ AfterRowsFault s t

/-- R372: `DEFILTER` of the forward-filtered rows gives the raw rows back, for every tag per row. -/
def Obligations.ForwardFilterRoundTrip : Prop :=
  ∀ (s : State) (raw : Nat → Nat → Byte) (tag : Nat → Nat), s.status ≠ .fault →
    let rb := s.arg0.toNat
    let n := s.arg1.toNat
    let bpp := s.arg2.toNat % 256 * max 1 (s.arg2.toNat / 256 % 256 / 8)
    let left := fun r i => if bpp ≤ i then (raw r (i - bpp)).toNat else 0
    let up := fun r i => if 1 ≤ r then (raw (r - 1) i).toNat else 0
    let upLeft := fun r i => if 1 ≤ r ∧ bpp ≤ i then (raw (r - 1) (i - bpp)).toNat else 0
    rb ≠ 0 → s.arg2.toNat % 256 ≠ 0 → n * rb ≤ s.olen.toNat → n * (rb - 1) ≤ s.params.rbufCap →
    (∀ r, r < n → tag r ≤ 4 ∧ s.obuf.get (r * rb) = BitVec.ofNat 8 (tag r) ∧
      ∀ i, i < rb - 1 → s.obuf.get (r * rb + 1 + i) =
        raw r i - BitVec.ofNat 8 (predictorOf (tag r) (left r i) (up r i) (upLeft r i))) →
    ∃ t, exec .defilter s = .next t ∧ t.status = .done ∧ t.rlen.toNat = n * (rb - 1) % 2 ^ 32 ∧
      ∀ r i, r < n → i < rb - 1 → t.rbuf.get (r * (rb - 1) + i) = raw r i

/-- R363 to R368, R362: each filter type on its row: the row's bytes, the rest of `RBUF` unchanged, and the next row or
the end of the command. -/
def Obligations.FilterRows : Prop :=
  ∀ (i : Instr) (pred : Predictor), (i, pred) ∈ filterInstrs →
    ∀ s : State, 1 ≤ channels s →
      let r := s.work.row
      let w := rowWidth s
      ∃ t, exec i s = .next t ∧
        (r + 1 < nRows s → t = { s with rbuf := t.rbuf, work := { s.work with row := r + 1 } }) ∧
        (nRows s ≤ r + 1 → t = { s with
          status := .done, err := 0, rbuf := t.rbuf, rlen := BitVec.ofNat 32 (nRows s * w)
          work := Work.idle }) ∧
        (∀ j, j < w → (t.rbuf.get (r * w + j)).toNat =
          (filtered s r j + pred (leftOf t r j) (upOf t r j) (upLeftOf t r j)) % 256) ∧
        ∀ a, a < r * w ∨ r * w + w ≤ a → t.rbuf.get a = s.rbuf.get a

/-- R368: the Paeth predictor is the candidate nearest to `a + b - c`, left before up before upper-left. -/
def Obligations.PaethNearest : Prop :=
  ∀ a b c : Nat,
    let dist : Nat → Nat := fun x => ((a : Int) + b - c - x).natAbs
    let x := paeth a b c
    (x = a ∧ dist a ≤ dist b ∧ dist a ≤ dist c) ∨
    (x = b ∧ dist b < dist a ∧ dist b ≤ dist c) ∨
    (x = c ∧ dist c < dist a ∧ dist c < dist b)

/-! ### Encoding -/

/-- R100, R104, R108, R109, R112, R117: words written out from the tables of the spec. -/
def Obligations.WordsDecode : Prop :=
  decode .cmd 0b00110000 = .ok .inflate ∧ decode .cmd 0b00000011 = .ok (.cmdIllegal 0b00000011#8) ∧
  decode .blkhdr 0b011 = .ok (.blkFixed true) ∧ decode .llsym 0b001100001 = .ok (.lit 97#8) ∧
  decode .llsym 0b100000000 = .ok .eob ∧ decode .llsym 0b100011101 = .ok .len285 ∧
  decode .dsym 0b11101 = .ok .dist29 ∧ decode .clsym 0b10010 = .ok .clZrep11 ∧
  decode .ftag 0b00000100 = .ok .ftPaeth

/-- R122: the encoder and the decoder agree in both directions, for every instruction and every word. -/
def Obligations.EncodeDecode : Prop :=
  (∀ i : Instr, i.wf = true → encode i < 2 ^ i.format.bits ∧ decode i.format (encode i) = .ok i) ∧
  (∀ (f : Format) (w : Nat), w < 2 ^ f.bits →
    ∃ i, decode f w = .ok i ∧ i.wf = true ∧ i.format = f ∧ encode i = w) ∧
  ∀ (f : Format) (w : Nat), 2 ^ f.bits ≤ w → decode f w = .error (.tooWide f w)

/-! ### The step and the host -/

/-- R2, R24, R380, R381: a step runs the instruction fetched from the stream; with no command running it is the host's
turn, and a write to `CMD` runs the command of its low eight bits, or is ignored in `FAULT`. -/
def Obligations.StepRunsInstruction : Prop :=
  ∀ s : State,
    (∀ i t, fetch s = some (.ok i t) → step s = exec i t) ∧
    (∀ k t, fetch s = some (.fail k t) → ∃ u, step s = .next u ∧ AfterInflateFault k t u) ∧
    (s.atHost → s.pending = [] → step s = .next s) ∧
    ∀ v rest, s.atHost → s.pending = .writeReg 0 v :: rest →
      let i := decodeCommand (v.setWidth 8)
      (s.status ≠ .fault ∨ i = .reset ∨ i = .clr →
        step s = exec i { s with pending := rest, cmd := v.setWidth 8 }) ∧
      (s.status = .fault → i ≠ .reset → i ≠ .clr → step s = .next { s with pending := rest })

/-- R37, R22: the register map, for reads and writes, and every index outside it. -/
def Obligations.RegisterMap : Prop :=
  ∀ (s : State) (v : Word) (index : Nat) (rest : List HostAccess), s.atHost →
    (index ≠ 0 → s.pending = .writeReg index v :: rest →
      step s = .next { s with
        pending := rest
        arg0 := if index = 4 then v else s.arg0
        arg1 := if index = 5 then v else s.arg1
        arg2 := if index = 6 then v else s.arg2 }) ∧
    (s.pending = .readReg index :: rest →
      step s = .next { s with
        pending := rest
        hostData := BitVec.ofNat 32 (([0, s.status.code.toNat, s.err.toNat, s.warn.toNat, s.arg0.toNat,
          s.arg1.toNat, s.arg2.toNat, s.res0.toNat, s.brLen.toNat, s.brPos.toNat, s.brOrder.toNat,
          s.olen.toNat, s.rlen.toNat, s.zhdr.toNat, s.htValid.toNat] : List Nat).getD index 0) })

/-- R30 to R34, R75: the host writes `IBUF`, `OBUF` and the low four bits of a `LENS` cell, not `RBUF`, and reads any
cell of the four, which changes nothing of the block: the cell's value, zero-extended, is what the read returns (in the
model's own `hostData`, log entry 7). An access to a cell that does not exist is the model's fault (log entry 7). -/
def Obligations.HostMemoryAccess : Prop :=
  (∀ (s : State) (sp : Space) (a : Nat) (v : Byte) (rest : List HostAccess), s.atHost →
    s.pending = .writeCell sp a v :: rest →
    (sp.size s.params ≤ a → step s = .fault (.noSuchCell sp a)) ∧
    (a < sp.size s.params →
      ∃ t, step s = .next t ∧
        t = { s with pending := rest, ibuf := t.ibuf, obuf := t.obuf, lens := t.lens } ∧
        (∀ b, t.ibuf.get b = if sp = .ibuf ∧ b = a then v else s.ibuf.get b) ∧
        (∀ b, t.obuf.get b = if sp = .obuf ∧ b = a then v else s.obuf.get b) ∧
        ∀ b, t.lens.get b = if sp = .lens ∧ b = a then v.setWidth 4 else s.lens.get b)) ∧
  ∀ (s : State) (sp : Space) (a : Nat) (rest : List HostAccess), s.atHost → s.pending = .readCell sp a :: rest →
    (sp.size s.params ≤ a → step s = .fault (.noSuchCell sp a)) ∧
    (a < sp.size s.params →
      ∃ t, step s = .next t ∧ t = { s with pending := rest, hostData := t.hostData } ∧
        (sp = .ibuf → t.hostData.toNat = (s.ibuf.get a).toNat) ∧
        (sp = .obuf → t.hostData.toNat = (s.obuf.get a).toNat) ∧
        (sp = .rbuf → t.hostData.toNat = (s.rbuf.get a).toNat) ∧
        (sp = .lens → t.hostData.toNat = (s.lens.get a).toNat))

/-- Every step keeps the invariant: R46, the canonical memories, the slots, and the working values of a running
command. -/
def Obligations.StepKeepsInvariant : Prop := ∀ s t : State, Inv s → step s = .next t → Inv t

/-- R34, R420: no instruction stops the machine. A step is never refused, and the one fault is the host's access to a
cell that does not exist. -/
def Obligations.OnlyHostStops : Prop :=
  (∀ (i : Instr) (s : State), ∃ t, exec i s = .next t) ∧
  (∀ (s : State) (r : Refusal), step s ≠ .refused r) ∧
  ∀ (s : State) (f : Fault), step s = .fault f ↔
    s.atHost ∧ ∃ sp a rest, f = .noSuchCell sp a ∧ sp.size s.params ≤ a ∧
      ((∃ v, s.pending = .writeCell sp a v :: rest) ∨ s.pending = .readCell sp a :: rest)

/-! ### The container (host software, R5) -/

/-- R176 to R181: a file that is the signature and whole chunks parses to those chunks; without the signature it is
`BadSignature`. -/
def Obligations.ContainerParses : Prop :=
  (∀ cs : List Chunk,
    (∀ c ∈ cs, c.tag.length = 4 ∧ c.payload.length = c.length ∧ c.length < 2 ^ 32 ∧ chunkCrcOk c = true) →
    parsePng (pngSignature ++ cs.flatMap chunkBytes) = .ok cs) ∧
  ∀ file : List Byte, file.take 8 ≠ pngSignature → parsePng file = .error .badSignature
end

