-- ==== Sys2Proof/Laws/Container.lean ====
section
/-! SUPPORT. What the host software of the container can do, said once (42_container_host.md). -/

namespace Sys2Proof.Machine

@[simp] theorem HostRes.andThen_ok {α β : Type} (a : α) (s : State) (f : α → State → HostRes β) :
    (HostRes.ok a s).andThen f = f a s := rfl
@[simp] theorem HostRes.andThen_fail {α β : Type} (k : Failure) (s : State) (f : α → State → HostRes β) :
    (HostRes.fail k s : HostRes α).andThen f = .fail k s := rfl
@[simp] theorem HostRes.andThen_outside {α β : Type} (s : State) (f : α → State → HostRes β) :
    (HostRes.outside s : HostRes α).andThen f = .outside s := rfl
@[simp] theorem HostRes.ofExcept_ok {α : Type} (a : α) (s : State) :
    HostRes.ofExcept (.ok a) s = .ok a s := rfl
@[simp] theorem HostRes.ofExcept_error {α : Type} (k : Failure) (s : State) :
    (HostRes.ofExcept (.error k) s : HostRes α) = .fail k s := rfl

theorem HostRes.andThen_eq_ok {α β : Type} {r : HostRes α} {f : α → State → HostRes β} {b : β} {t : State} :
    r.andThen f = .ok b t ↔ ∃ a s, r = .ok a s ∧ f a s = .ok b t := by
  cases r <;> simp [HostRes.andThen]

/-- `ERR` names its failure. -/
@[simp] theorem Failure.ofCode_code (k : Failure) : Failure.ofCode k.code = some k := by cases k <;> rfl

/-- An access that gives a value is a step of the block. -/
theorem issue_eq_ok {a : HostAccess} {v : Word} {s t : State} :
    issue a s = .ok v t ↔ step { s with pending := a :: s.pending } = .next t ∧ v = t.hostData := by
  unfold issue
  cases step { s with pending := a :: s.pending } <;>
    simp only [HostRes.ok.injEq, reduceCtorEq, false_and, Host.Outcome.next.injEq]
  exact ⟨fun h => ⟨h.2, h.1 ▸ h.2 ▸ rfl⟩, fun h => ⟨h.2 ▸ h.1 ▸ rfl, h.1⟩⟩

/-- The three ways the walk's next chunk ends (R178, R179). -/
theorem nextChunk_cases (bytes : List Byte) :
    (bytes.length < 12 ∧ nextChunk bytes = none) ∨
    (12 ≤ bytes.length ∧ bytes.length < 12 + (firstChunk bytes).length ∧
      nextChunk bytes = some (.error .truncatedChunk)) ∨
    (12 + (firstChunk bytes).length ≤ bytes.length ∧
      nextChunk bytes = some (.ok (firstChunk bytes, bytes.drop (12 + (firstChunk bytes).length)))) := by
  unfold nextChunk
  by_cases h : bytes.length < 12
  · exact .inl ⟨h, by simp [h]⟩
  · by_cases h' : bytes.length < 12 + (firstChunk bytes).length
    · exact .inr (.inl ⟨Nat.not_lt.1 h, h', by simp [h, h']⟩)
    · exact .inr (.inr ⟨Nat.not_lt.1 h', by simp [h, h']⟩)

@[simp] theorem length_sliceRows (height w : Nat) (bytes : List Byte) :
    (sliceRows height w bytes).length = height := by simp [sliceRows]

/-- Row `r`, byte `i` of the image is byte `r*w + i` of what was read from `RBUF` (R189). -/
theorem sliceRows_getElem (height w : Nat) (bytes : List Byte) {r i : Nat} (hr : r < height) (hi : i < w) :
    ((sliceRows height w bytes).getD r [])[i]? = bytes[r * w + i]? := by
  simp [sliceRows, hr, List.getElem?_take_of_lt hi]

/-- The operand is the row length itself whenever `ARG0` can hold it (R187). -/
theorem rowBytesOperand_of_lt {rowBytes height : Nat} (h : rowBytes < 2 ^ 32) :
    (rowBytesOperand rowBytes height).toNat = rowBytes := by
  rw [rowBytesOperand, if_pos h, BitVec.toNat_ofNat, Nat.mod_eq_of_lt h]

/-- `ARG0` is 0 for a row length it cannot hold exactly when the image has a row (R187, R360; log entry 17). -/
theorem rowBytesOperand_of_le {rowBytes height : Nat} (h : 2 ^ 32 ≤ rowBytes) :
    rowBytesOperand rowBytes height = if height = 0 then 1 else 0 := by
  rw [rowBytesOperand, if_neg (Nat.not_lt.2 h)]

end Sys2Proof.Machine
end

