-- ==== Sys2Proof/Laws/State.lean ====
section
/-! SUPPORT. The fields of the named updates of the state, one lemma per field and update, each true by rfl. -/

namespace Sys2Proof.Machine

variable (s : State)

/-! ### complete -/

@[simp] theorem complete_cmd : (complete s).cmd = s.cmd := rfl
@[simp] theorem complete_status : (complete s).status = .done := rfl
@[simp] theorem complete_err : (complete s).err = 0 := rfl
@[simp] theorem complete_warn : (complete s).warn = s.warn := rfl
@[simp] theorem complete_arg0 : (complete s).arg0 = s.arg0 := rfl
@[simp] theorem complete_arg1 : (complete s).arg1 = s.arg1 := rfl
@[simp] theorem complete_arg2 : (complete s).arg2 = s.arg2 := rfl
@[simp] theorem complete_res0 : (complete s).res0 = s.res0 := rfl
@[simp] theorem complete_brLen : (complete s).brLen = s.brLen := rfl
@[simp] theorem complete_brPos : (complete s).brPos = s.brPos := rfl
@[simp] theorem complete_brOrder : (complete s).brOrder = s.brOrder := rfl
@[simp] theorem complete_olen : (complete s).olen = s.olen := rfl
@[simp] theorem complete_rlen : (complete s).rlen = s.rlen := rfl
@[simp] theorem complete_zhdr : (complete s).zhdr = s.zhdr := rfl
@[simp] theorem complete_htValid : (complete s).htValid = s.htValid := rfl
@[simp] theorem complete_ibuf : (complete s).ibuf = s.ibuf := rfl
@[simp] theorem complete_obuf : (complete s).obuf = s.obuf := rfl
@[simp] theorem complete_rbuf : (complete s).rbuf = s.rbuf := rfl
@[simp] theorem complete_lens : (complete s).lens = s.lens := rfl
@[simp] theorem complete_slotCL : (complete s).slotCL = s.slotCL := rfl
@[simp] theorem complete_slotLL : (complete s).slotLL = s.slotLL := rfl
@[simp] theorem complete_slotD : (complete s).slotD = s.slotD := rfl
@[simp] theorem complete_work : (complete s).work = s.work := rfl
@[simp] theorem complete_pending : (complete s).pending = s.pending := rfl
@[simp] theorem complete_hostData : (complete s).hostData = s.hostData := rfl
@[simp] theorem complete_freeCtr : (complete s).freeCtr = s.freeCtr := rfl
@[simp] theorem complete_params : (complete s).params = s.params := rfl

/-! ### raise -/

@[simp] theorem raise_cmd (k : Failure) : (raise k s).cmd = s.cmd := rfl
@[simp] theorem raise_status (k : Failure) : (raise k s).status = .fault := rfl
@[simp] theorem raise_err (k : Failure) : (raise k s).err = k.code := rfl
@[simp] theorem raise_warn (k : Failure) : (raise k s).warn = s.warn := rfl
@[simp] theorem raise_arg0 (k : Failure) : (raise k s).arg0 = s.arg0 := rfl
@[simp] theorem raise_arg1 (k : Failure) : (raise k s).arg1 = s.arg1 := rfl
@[simp] theorem raise_arg2 (k : Failure) : (raise k s).arg2 = s.arg2 := rfl
@[simp] theorem raise_res0 (k : Failure) : (raise k s).res0 = s.res0 := rfl
@[simp] theorem raise_brLen (k : Failure) : (raise k s).brLen = s.brLen := rfl
@[simp] theorem raise_brPos (k : Failure) : (raise k s).brPos = s.brPos := rfl
@[simp] theorem raise_brOrder (k : Failure) : (raise k s).brOrder = s.brOrder := rfl
@[simp] theorem raise_olen (k : Failure) : (raise k s).olen = s.olen := rfl
@[simp] theorem raise_rlen (k : Failure) : (raise k s).rlen = s.rlen := rfl
@[simp] theorem raise_zhdr (k : Failure) : (raise k s).zhdr = s.zhdr := rfl
@[simp] theorem raise_htValid (k : Failure) : (raise k s).htValid = s.htValid := rfl
@[simp] theorem raise_ibuf (k : Failure) : (raise k s).ibuf = s.ibuf := rfl
@[simp] theorem raise_obuf (k : Failure) : (raise k s).obuf = s.obuf := rfl
@[simp] theorem raise_rbuf (k : Failure) : (raise k s).rbuf = s.rbuf := rfl
@[simp] theorem raise_lens (k : Failure) : (raise k s).lens = s.lens := rfl
@[simp] theorem raise_slotCL (k : Failure) : (raise k s).slotCL = s.slotCL := rfl
@[simp] theorem raise_slotLL (k : Failure) : (raise k s).slotLL = s.slotLL := rfl
@[simp] theorem raise_slotD (k : Failure) : (raise k s).slotD = s.slotD := rfl
@[simp] theorem raise_work (k : Failure) : (raise k s).work = s.work := rfl
@[simp] theorem raise_pending (k : Failure) : (raise k s).pending = s.pending := rfl
@[simp] theorem raise_hostData (k : Failure) : (raise k s).hostData = s.hostData := rfl
@[simp] theorem raise_freeCtr (k : Failure) : (raise k s).freeCtr = s.freeCtr := rfl
@[simp] theorem raise_params (k : Failure) : (raise k s).params = s.params := rfl

/-! ### clearFault -/

@[simp] theorem clearFault_cmd : (clearFault s).cmd = s.cmd := rfl
@[simp] theorem clearFault_status : (clearFault s).status = .idle := rfl
@[simp] theorem clearFault_err : (clearFault s).err = 0 := rfl
@[simp] theorem clearFault_warn : (clearFault s).warn = 0 := rfl
@[simp] theorem clearFault_arg0 : (clearFault s).arg0 = s.arg0 := rfl
@[simp] theorem clearFault_arg1 : (clearFault s).arg1 = s.arg1 := rfl
@[simp] theorem clearFault_arg2 : (clearFault s).arg2 = s.arg2 := rfl
@[simp] theorem clearFault_res0 : (clearFault s).res0 = s.res0 := rfl
@[simp] theorem clearFault_brLen : (clearFault s).brLen = s.brLen := rfl
@[simp] theorem clearFault_brPos : (clearFault s).brPos = s.brPos := rfl
@[simp] theorem clearFault_brOrder : (clearFault s).brOrder = s.brOrder := rfl
@[simp] theorem clearFault_olen : (clearFault s).olen = s.olen := rfl
@[simp] theorem clearFault_rlen : (clearFault s).rlen = s.rlen := rfl
@[simp] theorem clearFault_zhdr : (clearFault s).zhdr = s.zhdr := rfl
@[simp] theorem clearFault_htValid : (clearFault s).htValid = s.htValid := rfl
@[simp] theorem clearFault_ibuf : (clearFault s).ibuf = s.ibuf := rfl
@[simp] theorem clearFault_obuf : (clearFault s).obuf = s.obuf := rfl
@[simp] theorem clearFault_rbuf : (clearFault s).rbuf = s.rbuf := rfl
@[simp] theorem clearFault_lens : (clearFault s).lens = s.lens := rfl
@[simp] theorem clearFault_slotCL : (clearFault s).slotCL = s.slotCL := rfl
@[simp] theorem clearFault_slotLL : (clearFault s).slotLL = s.slotLL := rfl
@[simp] theorem clearFault_slotD : (clearFault s).slotD = s.slotD := rfl
@[simp] theorem clearFault_work : (clearFault s).work = s.work := rfl
@[simp] theorem clearFault_pending : (clearFault s).pending = s.pending := rfl
@[simp] theorem clearFault_hostData : (clearFault s).hostData = s.hostData := rfl
@[simp] theorem clearFault_freeCtr : (clearFault s).freeCtr = s.freeCtr := rfl
@[simp] theorem clearFault_params : (clearFault s).params = s.params := rfl

/-! ### advance -/

@[simp] theorem advance_cmd (n : Nat) : (advance n s).cmd = s.cmd := rfl
@[simp] theorem advance_status (n : Nat) : (advance n s).status = s.status := rfl
@[simp] theorem advance_err (n : Nat) : (advance n s).err = s.err := rfl
@[simp] theorem advance_warn (n : Nat) : (advance n s).warn = s.warn := rfl
@[simp] theorem advance_arg0 (n : Nat) : (advance n s).arg0 = s.arg0 := rfl
@[simp] theorem advance_arg1 (n : Nat) : (advance n s).arg1 = s.arg1 := rfl
@[simp] theorem advance_arg2 (n : Nat) : (advance n s).arg2 = s.arg2 := rfl
@[simp] theorem advance_res0 (n : Nat) : (advance n s).res0 = s.res0 := rfl
@[simp] theorem advance_brLen (n : Nat) : (advance n s).brLen = s.brLen := rfl
@[simp] theorem advance_brPos (n : Nat) : (advance n s).brPos = s.brPos + BitVec.ofNat 32 n := rfl
@[simp] theorem advance_brOrder (n : Nat) : (advance n s).brOrder = s.brOrder := rfl
@[simp] theorem advance_olen (n : Nat) : (advance n s).olen = s.olen := rfl
@[simp] theorem advance_rlen (n : Nat) : (advance n s).rlen = s.rlen := rfl
@[simp] theorem advance_zhdr (n : Nat) : (advance n s).zhdr = s.zhdr := rfl
@[simp] theorem advance_htValid (n : Nat) : (advance n s).htValid = s.htValid := rfl
@[simp] theorem advance_ibuf (n : Nat) : (advance n s).ibuf = s.ibuf := rfl
@[simp] theorem advance_obuf (n : Nat) : (advance n s).obuf = s.obuf := rfl
@[simp] theorem advance_rbuf (n : Nat) : (advance n s).rbuf = s.rbuf := rfl
@[simp] theorem advance_lens (n : Nat) : (advance n s).lens = s.lens := rfl
@[simp] theorem advance_slotCL (n : Nat) : (advance n s).slotCL = s.slotCL := rfl
@[simp] theorem advance_slotLL (n : Nat) : (advance n s).slotLL = s.slotLL := rfl
@[simp] theorem advance_slotD (n : Nat) : (advance n s).slotD = s.slotD := rfl
@[simp] theorem advance_work (n : Nat) : (advance n s).work = s.work := rfl
@[simp] theorem advance_pending (n : Nat) : (advance n s).pending = s.pending := rfl
@[simp] theorem advance_hostData (n : Nat) : (advance n s).hostData = s.hostData := rfl
@[simp] theorem advance_freeCtr (n : Nat) : (advance n s).freeCtr = s.freeCtr := rfl
@[simp] theorem advance_params (n : Nat) : (advance n s).params = s.params := rfl

/-! ### setWarnNlen -/

@[simp] theorem setWarnNlen_cmd : (setWarnNlen s).cmd = s.cmd := rfl
@[simp] theorem setWarnNlen_status : (setWarnNlen s).status = s.status := rfl
@[simp] theorem setWarnNlen_err : (setWarnNlen s).err = s.err := rfl
@[simp] theorem setWarnNlen_warn : (setWarnNlen s).warn = 1 := rfl
@[simp] theorem setWarnNlen_arg0 : (setWarnNlen s).arg0 = s.arg0 := rfl
@[simp] theorem setWarnNlen_arg1 : (setWarnNlen s).arg1 = s.arg1 := rfl
@[simp] theorem setWarnNlen_arg2 : (setWarnNlen s).arg2 = s.arg2 := rfl
@[simp] theorem setWarnNlen_res0 : (setWarnNlen s).res0 = s.res0 := rfl
@[simp] theorem setWarnNlen_brLen : (setWarnNlen s).brLen = s.brLen := rfl
@[simp] theorem setWarnNlen_brPos : (setWarnNlen s).brPos = s.brPos := rfl
@[simp] theorem setWarnNlen_brOrder : (setWarnNlen s).brOrder = s.brOrder := rfl
@[simp] theorem setWarnNlen_olen : (setWarnNlen s).olen = s.olen := rfl
@[simp] theorem setWarnNlen_rlen : (setWarnNlen s).rlen = s.rlen := rfl
@[simp] theorem setWarnNlen_zhdr : (setWarnNlen s).zhdr = s.zhdr := rfl
@[simp] theorem setWarnNlen_htValid : (setWarnNlen s).htValid = s.htValid := rfl
@[simp] theorem setWarnNlen_ibuf : (setWarnNlen s).ibuf = s.ibuf := rfl
@[simp] theorem setWarnNlen_obuf : (setWarnNlen s).obuf = s.obuf := rfl
@[simp] theorem setWarnNlen_rbuf : (setWarnNlen s).rbuf = s.rbuf := rfl
@[simp] theorem setWarnNlen_lens : (setWarnNlen s).lens = s.lens := rfl
@[simp] theorem setWarnNlen_slotCL : (setWarnNlen s).slotCL = s.slotCL := rfl
@[simp] theorem setWarnNlen_slotLL : (setWarnNlen s).slotLL = s.slotLL := rfl
@[simp] theorem setWarnNlen_slotD : (setWarnNlen s).slotD = s.slotD := rfl
@[simp] theorem setWarnNlen_work : (setWarnNlen s).work = s.work := rfl
@[simp] theorem setWarnNlen_pending : (setWarnNlen s).pending = s.pending := rfl
@[simp] theorem setWarnNlen_hostData : (setWarnNlen s).hostData = s.hostData := rfl
@[simp] theorem setWarnNlen_freeCtr : (setWarnNlen s).freeCtr = s.freeCtr := rfl
@[simp] theorem setWarnNlen_params : (setWarnNlen s).params = s.params := rfl

/-! ### setValid -/

@[simp] theorem setValid_cmd (k : Nat) : (setValid k s).cmd = s.cmd := rfl
@[simp] theorem setValid_status (k : Nat) : (setValid k s).status = s.status := rfl
@[simp] theorem setValid_err (k : Nat) : (setValid k s).err = s.err := rfl
@[simp] theorem setValid_warn (k : Nat) : (setValid k s).warn = s.warn := rfl
@[simp] theorem setValid_arg0 (k : Nat) : (setValid k s).arg0 = s.arg0 := rfl
@[simp] theorem setValid_arg1 (k : Nat) : (setValid k s).arg1 = s.arg1 := rfl
@[simp] theorem setValid_arg2 (k : Nat) : (setValid k s).arg2 = s.arg2 := rfl
@[simp] theorem setValid_res0 (k : Nat) : (setValid k s).res0 = s.res0 := rfl
@[simp] theorem setValid_brLen (k : Nat) : (setValid k s).brLen = s.brLen := rfl
@[simp] theorem setValid_brPos (k : Nat) : (setValid k s).brPos = s.brPos := rfl
@[simp] theorem setValid_brOrder (k : Nat) : (setValid k s).brOrder = s.brOrder := rfl
@[simp] theorem setValid_olen (k : Nat) : (setValid k s).olen = s.olen := rfl
@[simp] theorem setValid_rlen (k : Nat) : (setValid k s).rlen = s.rlen := rfl
@[simp] theorem setValid_zhdr (k : Nat) : (setValid k s).zhdr = s.zhdr := rfl
@[simp] theorem setValid_htValid (k : Nat) : (setValid k s).htValid = s.htValid ||| (1#3 <<< k) := rfl
@[simp] theorem setValid_ibuf (k : Nat) : (setValid k s).ibuf = s.ibuf := rfl
@[simp] theorem setValid_obuf (k : Nat) : (setValid k s).obuf = s.obuf := rfl
@[simp] theorem setValid_rbuf (k : Nat) : (setValid k s).rbuf = s.rbuf := rfl
@[simp] theorem setValid_lens (k : Nat) : (setValid k s).lens = s.lens := rfl
@[simp] theorem setValid_slotCL (k : Nat) : (setValid k s).slotCL = s.slotCL := rfl
@[simp] theorem setValid_slotLL (k : Nat) : (setValid k s).slotLL = s.slotLL := rfl
@[simp] theorem setValid_slotD (k : Nat) : (setValid k s).slotD = s.slotD := rfl
@[simp] theorem setValid_work (k : Nat) : (setValid k s).work = s.work := rfl
@[simp] theorem setValid_pending (k : Nat) : (setValid k s).pending = s.pending := rfl
@[simp] theorem setValid_hostData (k : Nat) : (setValid k s).hostData = s.hostData := rfl
@[simp] theorem setValid_freeCtr (k : Nat) : (setValid k s).freeCtr = s.freeCtr := rfl
@[simp] theorem setValid_params (k : Nat) : (setValid k s).params = s.params := rfl

/-! ### clearValid -/

@[simp] theorem clearValid_cmd (k : Nat) : (clearValid k s).cmd = s.cmd := rfl
@[simp] theorem clearValid_status (k : Nat) : (clearValid k s).status = s.status := rfl
@[simp] theorem clearValid_err (k : Nat) : (clearValid k s).err = s.err := rfl
@[simp] theorem clearValid_warn (k : Nat) : (clearValid k s).warn = s.warn := rfl
@[simp] theorem clearValid_arg0 (k : Nat) : (clearValid k s).arg0 = s.arg0 := rfl
@[simp] theorem clearValid_arg1 (k : Nat) : (clearValid k s).arg1 = s.arg1 := rfl
@[simp] theorem clearValid_arg2 (k : Nat) : (clearValid k s).arg2 = s.arg2 := rfl
@[simp] theorem clearValid_res0 (k : Nat) : (clearValid k s).res0 = s.res0 := rfl
@[simp] theorem clearValid_brLen (k : Nat) : (clearValid k s).brLen = s.brLen := rfl
@[simp] theorem clearValid_brPos (k : Nat) : (clearValid k s).brPos = s.brPos := rfl
@[simp] theorem clearValid_brOrder (k : Nat) : (clearValid k s).brOrder = s.brOrder := rfl
@[simp] theorem clearValid_olen (k : Nat) : (clearValid k s).olen = s.olen := rfl
@[simp] theorem clearValid_rlen (k : Nat) : (clearValid k s).rlen = s.rlen := rfl
@[simp] theorem clearValid_zhdr (k : Nat) : (clearValid k s).zhdr = s.zhdr := rfl
@[simp] theorem clearValid_htValid (k : Nat) : (clearValid k s).htValid = s.htValid &&& ~~~(1#3 <<< k) := rfl
@[simp] theorem clearValid_ibuf (k : Nat) : (clearValid k s).ibuf = s.ibuf := rfl
@[simp] theorem clearValid_obuf (k : Nat) : (clearValid k s).obuf = s.obuf := rfl
@[simp] theorem clearValid_rbuf (k : Nat) : (clearValid k s).rbuf = s.rbuf := rfl
@[simp] theorem clearValid_lens (k : Nat) : (clearValid k s).lens = s.lens := rfl
@[simp] theorem clearValid_slotCL (k : Nat) : (clearValid k s).slotCL = s.slotCL := rfl
@[simp] theorem clearValid_slotLL (k : Nat) : (clearValid k s).slotLL = s.slotLL := rfl
@[simp] theorem clearValid_slotD (k : Nat) : (clearValid k s).slotD = s.slotD := rfl
@[simp] theorem clearValid_work (k : Nat) : (clearValid k s).work = s.work := rfl
@[simp] theorem clearValid_pending (k : Nat) : (clearValid k s).pending = s.pending := rfl
@[simp] theorem clearValid_hostData (k : Nat) : (clearValid k s).hostData = s.hostData := rfl
@[simp] theorem clearValid_freeCtr (k : Nat) : (clearValid k s).freeCtr = s.freeCtr := rfl
@[simp] theorem clearValid_params (k : Nat) : (clearValid k s).params = s.params := rfl

/-! ### openReader -/

@[simp] theorem openReader_cmd (n : Word) (o : BitVec 1) : (openReader n o s).cmd = s.cmd := rfl
@[simp] theorem openReader_status (n : Word) (o : BitVec 1) : (openReader n o s).status = s.status := rfl
@[simp] theorem openReader_err (n : Word) (o : BitVec 1) : (openReader n o s).err = s.err := rfl
@[simp] theorem openReader_warn (n : Word) (o : BitVec 1) : (openReader n o s).warn = s.warn := rfl
@[simp] theorem openReader_arg0 (n : Word) (o : BitVec 1) : (openReader n o s).arg0 = s.arg0 := rfl
@[simp] theorem openReader_arg1 (n : Word) (o : BitVec 1) : (openReader n o s).arg1 = s.arg1 := rfl
@[simp] theorem openReader_arg2 (n : Word) (o : BitVec 1) : (openReader n o s).arg2 = s.arg2 := rfl
@[simp] theorem openReader_res0 (n : Word) (o : BitVec 1) : (openReader n o s).res0 = s.res0 := rfl
@[simp] theorem openReader_brLen (n : Word) (o : BitVec 1) : (openReader n o s).brLen = n := rfl
@[simp] theorem openReader_brPos (n : Word) (o : BitVec 1) : (openReader n o s).brPos = 0 := rfl
@[simp] theorem openReader_brOrder (n : Word) (o : BitVec 1) : (openReader n o s).brOrder = o := rfl
@[simp] theorem openReader_olen (n : Word) (o : BitVec 1) : (openReader n o s).olen = s.olen := rfl
@[simp] theorem openReader_rlen (n : Word) (o : BitVec 1) : (openReader n o s).rlen = s.rlen := rfl
@[simp] theorem openReader_zhdr (n : Word) (o : BitVec 1) : (openReader n o s).zhdr = s.zhdr := rfl
@[simp] theorem openReader_htValid (n : Word) (o : BitVec 1) : (openReader n o s).htValid = s.htValid := rfl
@[simp] theorem openReader_ibuf (n : Word) (o : BitVec 1) : (openReader n o s).ibuf = s.ibuf := rfl
@[simp] theorem openReader_obuf (n : Word) (o : BitVec 1) : (openReader n o s).obuf = s.obuf := rfl
@[simp] theorem openReader_rbuf (n : Word) (o : BitVec 1) : (openReader n o s).rbuf = s.rbuf := rfl
@[simp] theorem openReader_lens (n : Word) (o : BitVec 1) : (openReader n o s).lens = s.lens := rfl
@[simp] theorem openReader_slotCL (n : Word) (o : BitVec 1) : (openReader n o s).slotCL = s.slotCL := rfl
@[simp] theorem openReader_slotLL (n : Word) (o : BitVec 1) : (openReader n o s).slotLL = s.slotLL := rfl
@[simp] theorem openReader_slotD (n : Word) (o : BitVec 1) : (openReader n o s).slotD = s.slotD := rfl
@[simp] theorem openReader_work (n : Word) (o : BitVec 1) : (openReader n o s).work = s.work := rfl
@[simp] theorem openReader_pending (n : Word) (o : BitVec 1) : (openReader n o s).pending = s.pending := rfl
@[simp] theorem openReader_hostData (n : Word) (o : BitVec 1) : (openReader n o s).hostData = s.hostData := rfl
@[simp] theorem openReader_freeCtr (n : Word) (o : BitVec 1) : (openReader n o s).freeCtr = s.freeCtr := rfl
@[simp] theorem openReader_params (n : Word) (o : BitVec 1) : (openReader n o s).params = s.params := rfl

/-! ### spoilResult -/

@[simp] theorem spoilResult_cmd : (spoilResult s).cmd = s.cmd := rfl
@[simp] theorem spoilResult_status : (spoilResult s).status = s.status := rfl
@[simp] theorem spoilResult_err : (spoilResult s).err = s.err := rfl
@[simp] theorem spoilResult_warn : (spoilResult s).warn = s.warn := rfl
@[simp] theorem spoilResult_arg0 : (spoilResult s).arg0 = s.arg0 := rfl
@[simp] theorem spoilResult_arg1 : (spoilResult s).arg1 = s.arg1 := rfl
@[simp] theorem spoilResult_arg2 : (spoilResult s).arg2 = s.arg2 := rfl
@[simp] theorem spoilResult_res0 : (spoilResult s).res0 = Config.freeReg 32 s.freeCtr := rfl
@[simp] theorem spoilResult_brLen : (spoilResult s).brLen = s.brLen := rfl
@[simp] theorem spoilResult_brPos : (spoilResult s).brPos = s.brPos := rfl
@[simp] theorem spoilResult_brOrder : (spoilResult s).brOrder = s.brOrder := rfl
@[simp] theorem spoilResult_olen : (spoilResult s).olen = s.olen := rfl
@[simp] theorem spoilResult_rlen : (spoilResult s).rlen = s.rlen := rfl
@[simp] theorem spoilResult_zhdr : (spoilResult s).zhdr = s.zhdr := rfl
@[simp] theorem spoilResult_htValid : (spoilResult s).htValid = s.htValid := rfl
@[simp] theorem spoilResult_ibuf : (spoilResult s).ibuf = s.ibuf := rfl
@[simp] theorem spoilResult_obuf : (spoilResult s).obuf = s.obuf := rfl
@[simp] theorem spoilResult_rbuf : (spoilResult s).rbuf = s.rbuf := rfl
@[simp] theorem spoilResult_lens : (spoilResult s).lens = s.lens := rfl
@[simp] theorem spoilResult_slotCL : (spoilResult s).slotCL = s.slotCL := rfl
@[simp] theorem spoilResult_slotLL : (spoilResult s).slotLL = s.slotLL := rfl
@[simp] theorem spoilResult_slotD : (spoilResult s).slotD = s.slotD := rfl
@[simp] theorem spoilResult_work : (spoilResult s).work = s.work := rfl
@[simp] theorem spoilResult_pending : (spoilResult s).pending = s.pending := rfl
@[simp] theorem spoilResult_hostData : (spoilResult s).hostData = s.hostData := rfl
@[simp] theorem spoilResult_freeCtr : (spoilResult s).freeCtr = s.freeCtr + 1 := rfl
@[simp] theorem spoilResult_params : (spoilResult s).params = s.params := rfl

/-! ### spoilDecode -/

@[simp] theorem spoilDecode_cmd (pos : Nat) : (spoilDecode pos s).cmd = s.cmd := rfl
@[simp] theorem spoilDecode_status (pos : Nat) : (spoilDecode pos s).status = s.status := rfl
@[simp] theorem spoilDecode_err (pos : Nat) : (spoilDecode pos s).err = s.err := rfl
@[simp] theorem spoilDecode_warn (pos : Nat) : (spoilDecode pos s).warn = s.warn := rfl
@[simp] theorem spoilDecode_arg0 (pos : Nat) : (spoilDecode pos s).arg0 = s.arg0 := rfl
@[simp] theorem spoilDecode_arg1 (pos : Nat) : (spoilDecode pos s).arg1 = s.arg1 := rfl
@[simp] theorem spoilDecode_arg2 (pos : Nat) : (spoilDecode pos s).arg2 = s.arg2 := rfl
@[simp] theorem spoilDecode_res0 (pos : Nat) : (spoilDecode pos s).res0 = Config.freeReg 32 s.freeCtr := rfl
@[simp] theorem spoilDecode_brLen (pos : Nat) : (spoilDecode pos s).brLen = s.brLen := rfl
@[simp] theorem spoilDecode_brPos (pos : Nat) : (spoilDecode pos s).brPos = freeBetween pos (8 * s.brLen.toNat) (s.freeCtr + 1) := rfl
@[simp] theorem spoilDecode_brOrder (pos : Nat) : (spoilDecode pos s).brOrder = s.brOrder := rfl
@[simp] theorem spoilDecode_olen (pos : Nat) : (spoilDecode pos s).olen = s.olen := rfl
@[simp] theorem spoilDecode_rlen (pos : Nat) : (spoilDecode pos s).rlen = s.rlen := rfl
@[simp] theorem spoilDecode_zhdr (pos : Nat) : (spoilDecode pos s).zhdr = s.zhdr := rfl
@[simp] theorem spoilDecode_htValid (pos : Nat) : (spoilDecode pos s).htValid = s.htValid := rfl
@[simp] theorem spoilDecode_ibuf (pos : Nat) : (spoilDecode pos s).ibuf = s.ibuf := rfl
@[simp] theorem spoilDecode_obuf (pos : Nat) : (spoilDecode pos s).obuf = s.obuf := rfl
@[simp] theorem spoilDecode_rbuf (pos : Nat) : (spoilDecode pos s).rbuf = s.rbuf := rfl
@[simp] theorem spoilDecode_lens (pos : Nat) : (spoilDecode pos s).lens = s.lens := rfl
@[simp] theorem spoilDecode_slotCL (pos : Nat) : (spoilDecode pos s).slotCL = s.slotCL := rfl
@[simp] theorem spoilDecode_slotLL (pos : Nat) : (spoilDecode pos s).slotLL = s.slotLL := rfl
@[simp] theorem spoilDecode_slotD (pos : Nat) : (spoilDecode pos s).slotD = s.slotD := rfl
@[simp] theorem spoilDecode_work (pos : Nat) : (spoilDecode pos s).work = s.work := rfl
@[simp] theorem spoilDecode_pending (pos : Nat) : (spoilDecode pos s).pending = s.pending := rfl
@[simp] theorem spoilDecode_hostData (pos : Nat) : (spoilDecode pos s).hostData = s.hostData := rfl
@[simp] theorem spoilDecode_freeCtr (pos : Nat) : (spoilDecode pos s).freeCtr = s.freeCtr + 2 := rfl
@[simp] theorem spoilDecode_params (pos : Nat) : (spoilDecode pos s).params = s.params := rfl

/-! ### spoilRows -/

@[simp] theorem spoilRows_cmd : (spoilRows s).cmd = s.cmd := rfl
@[simp] theorem spoilRows_status : (spoilRows s).status = s.status := rfl
@[simp] theorem spoilRows_err : (spoilRows s).err = s.err := rfl
@[simp] theorem spoilRows_warn : (spoilRows s).warn = s.warn := rfl
@[simp] theorem spoilRows_arg0 : (spoilRows s).arg0 = s.arg0 := rfl
@[simp] theorem spoilRows_arg1 : (spoilRows s).arg1 = s.arg1 := rfl
@[simp] theorem spoilRows_arg2 : (spoilRows s).arg2 = s.arg2 := rfl
@[simp] theorem spoilRows_res0 : (spoilRows s).res0 = s.res0 := rfl
@[simp] theorem spoilRows_brLen : (spoilRows s).brLen = s.brLen := rfl
@[simp] theorem spoilRows_brPos : (spoilRows s).brPos = s.brPos := rfl
@[simp] theorem spoilRows_brOrder : (spoilRows s).brOrder = s.brOrder := rfl
@[simp] theorem spoilRows_olen : (spoilRows s).olen = s.olen := rfl
@[simp] theorem spoilRows_rlen : (spoilRows s).rlen = freeBetween 0 s.params.rbufCap s.freeCtr := rfl
@[simp] theorem spoilRows_zhdr : (spoilRows s).zhdr = s.zhdr := rfl
@[simp] theorem spoilRows_htValid : (spoilRows s).htValid = s.htValid := rfl
@[simp] theorem spoilRows_ibuf : (spoilRows s).ibuf = s.ibuf := rfl
@[simp] theorem spoilRows_obuf : (spoilRows s).obuf = s.obuf := rfl
@[simp] theorem spoilRows_rbuf : (spoilRows s).rbuf = Memory.unspecified (s.freeCtr + 1) := rfl
@[simp] theorem spoilRows_lens : (spoilRows s).lens = s.lens := rfl
@[simp] theorem spoilRows_slotCL : (spoilRows s).slotCL = s.slotCL := rfl
@[simp] theorem spoilRows_slotLL : (spoilRows s).slotLL = s.slotLL := rfl
@[simp] theorem spoilRows_slotD : (spoilRows s).slotD = s.slotD := rfl
@[simp] theorem spoilRows_work : (spoilRows s).work = Work.idle := rfl
@[simp] theorem spoilRows_pending : (spoilRows s).pending = s.pending := rfl
@[simp] theorem spoilRows_hostData : (spoilRows s).hostData = s.hostData := rfl
@[simp] theorem spoilRows_freeCtr : (spoilRows s).freeCtr = s.freeCtr + 2 := rfl
@[simp] theorem spoilRows_params : (spoilRows s).params = s.params := rfl

/-! ### spoilInflate -/

@[simp] theorem spoilInflate_cmd : (spoilInflate s).cmd = s.cmd := rfl
@[simp] theorem spoilInflate_status : (spoilInflate s).status = s.status := rfl
@[simp] theorem spoilInflate_err : (spoilInflate s).err = s.err := rfl
@[simp] theorem spoilInflate_warn : (spoilInflate s).warn = s.warn := rfl
@[simp] theorem spoilInflate_arg0 : (spoilInflate s).arg0 = s.arg0 := rfl
@[simp] theorem spoilInflate_arg1 : (spoilInflate s).arg1 = s.arg1 := rfl
@[simp] theorem spoilInflate_arg2 : (spoilInflate s).arg2 = s.arg2 := rfl
@[simp] theorem spoilInflate_res0 : (spoilInflate s).res0 = s.res0 := rfl
@[simp] theorem spoilInflate_brLen : (spoilInflate s).brLen = s.brLen := rfl
@[simp] theorem spoilInflate_brPos : (spoilInflate s).brPos = freeBetween 0 (8 * s.brLen.toNat) s.freeCtr := rfl
@[simp] theorem spoilInflate_brOrder : (spoilInflate s).brOrder = s.brOrder := rfl
@[simp] theorem spoilInflate_olen : (spoilInflate s).olen = freeBetween 0 s.params.obufCap (s.freeCtr + 1) := rfl
@[simp] theorem spoilInflate_rlen : (spoilInflate s).rlen = s.rlen := rfl
@[simp] theorem spoilInflate_zhdr : (spoilInflate s).zhdr = Config.freeReg 16 (s.freeCtr + 2) := rfl
@[simp] theorem spoilInflate_htValid : (spoilInflate s).htValid = s.htValid := rfl
@[simp] theorem spoilInflate_ibuf : (spoilInflate s).ibuf = s.ibuf := rfl
@[simp] theorem spoilInflate_obuf : (spoilInflate s).obuf = Memory.unspecified (s.freeCtr + 3) := rfl
@[simp] theorem spoilInflate_rbuf : (spoilInflate s).rbuf = s.rbuf := rfl
@[simp] theorem spoilInflate_lens : (spoilInflate s).lens = Memory.unspecified (s.freeCtr + 4) := rfl
@[simp] theorem spoilInflate_slotCL : (spoilInflate s).slotCL = none := rfl
@[simp] theorem spoilInflate_slotLL : (spoilInflate s).slotLL = none := rfl
@[simp] theorem spoilInflate_slotD : (spoilInflate s).slotD = none := rfl
@[simp] theorem spoilInflate_work : (spoilInflate s).work = Work.idle := rfl
@[simp] theorem spoilInflate_pending : (spoilInflate s).pending = s.pending := rfl
@[simp] theorem spoilInflate_hostData : (spoilInflate s).hostData = s.hostData := rfl
@[simp] theorem spoilInflate_freeCtr : (spoilInflate s).freeCtr = s.freeCtr + 5 := rfl
@[simp] theorem spoilInflate_params : (spoilInflate s).params = s.params := rfl

/-! ### completeInflate -/

@[simp] theorem completeInflate_cmd : (completeInflate s).cmd = s.cmd := rfl
@[simp] theorem completeInflate_status : (completeInflate s).status = .done := rfl
@[simp] theorem completeInflate_err : (completeInflate s).err = 0 := rfl
@[simp] theorem completeInflate_warn : (completeInflate s).warn = s.warn := rfl
@[simp] theorem completeInflate_arg0 : (completeInflate s).arg0 = s.arg0 := rfl
@[simp] theorem completeInflate_arg1 : (completeInflate s).arg1 = s.arg1 := rfl
@[simp] theorem completeInflate_arg2 : (completeInflate s).arg2 = s.arg2 := rfl
@[simp] theorem completeInflate_res0 : (completeInflate s).res0 = s.res0 := rfl
@[simp] theorem completeInflate_brLen : (completeInflate s).brLen = s.brLen := rfl
@[simp] theorem completeInflate_brPos : (completeInflate s).brPos = s.brPos := rfl
@[simp] theorem completeInflate_brOrder : (completeInflate s).brOrder = s.brOrder := rfl
@[simp] theorem completeInflate_olen : (completeInflate s).olen = s.olen := rfl
@[simp] theorem completeInflate_rlen : (completeInflate s).rlen = s.rlen := rfl
@[simp] theorem completeInflate_zhdr : (completeInflate s).zhdr = s.zhdr := rfl
@[simp] theorem completeInflate_htValid : (completeInflate s).htValid = s.htValid := rfl
@[simp] theorem completeInflate_ibuf : (completeInflate s).ibuf = s.ibuf := rfl
@[simp] theorem completeInflate_obuf : (completeInflate s).obuf = s.obuf := rfl
@[simp] theorem completeInflate_rbuf : (completeInflate s).rbuf = s.rbuf := rfl
@[simp] theorem completeInflate_lens : (completeInflate s).lens = Memory.unspecified s.freeCtr := rfl
@[simp] theorem completeInflate_slotCL : (completeInflate s).slotCL = none := rfl
@[simp] theorem completeInflate_slotLL : (completeInflate s).slotLL = none := rfl
@[simp] theorem completeInflate_slotD : (completeInflate s).slotD = none := rfl
@[simp] theorem completeInflate_work : (completeInflate s).work = Work.idle := rfl
@[simp] theorem completeInflate_pending : (completeInflate s).pending = s.pending := rfl
@[simp] theorem completeInflate_hostData : (completeInflate s).hostData = s.hostData := rfl
@[simp] theorem completeInflate_freeCtr : (completeInflate s).freeCtr = s.freeCtr + 1 := rfl
@[simp] theorem completeInflate_params : (completeInflate s).params = s.params := rfl

/-! ### completeDefilter -/

@[simp] theorem completeDefilter_cmd : (completeDefilter s).cmd = s.cmd := rfl
@[simp] theorem completeDefilter_status : (completeDefilter s).status = .done := rfl
@[simp] theorem completeDefilter_err : (completeDefilter s).err = 0 := rfl
@[simp] theorem completeDefilter_warn : (completeDefilter s).warn = s.warn := rfl
@[simp] theorem completeDefilter_arg0 : (completeDefilter s).arg0 = s.arg0 := rfl
@[simp] theorem completeDefilter_arg1 : (completeDefilter s).arg1 = s.arg1 := rfl
@[simp] theorem completeDefilter_arg2 : (completeDefilter s).arg2 = s.arg2 := rfl
@[simp] theorem completeDefilter_res0 : (completeDefilter s).res0 = s.res0 := rfl
@[simp] theorem completeDefilter_brLen : (completeDefilter s).brLen = s.brLen := rfl
@[simp] theorem completeDefilter_brPos : (completeDefilter s).brPos = s.brPos := rfl
@[simp] theorem completeDefilter_brOrder : (completeDefilter s).brOrder = s.brOrder := rfl
@[simp] theorem completeDefilter_olen : (completeDefilter s).olen = s.olen := rfl
@[simp] theorem completeDefilter_rlen : (completeDefilter s).rlen = BitVec.ofNat 32 (nRows s * rowWidth s) := rfl
@[simp] theorem completeDefilter_zhdr : (completeDefilter s).zhdr = s.zhdr := rfl
@[simp] theorem completeDefilter_htValid : (completeDefilter s).htValid = s.htValid := rfl
@[simp] theorem completeDefilter_ibuf : (completeDefilter s).ibuf = s.ibuf := rfl
@[simp] theorem completeDefilter_obuf : (completeDefilter s).obuf = s.obuf := rfl
@[simp] theorem completeDefilter_rbuf : (completeDefilter s).rbuf = s.rbuf := rfl
@[simp] theorem completeDefilter_lens : (completeDefilter s).lens = s.lens := rfl
@[simp] theorem completeDefilter_slotCL : (completeDefilter s).slotCL = s.slotCL := rfl
@[simp] theorem completeDefilter_slotLL : (completeDefilter s).slotLL = s.slotLL := rfl
@[simp] theorem completeDefilter_slotD : (completeDefilter s).slotD = s.slotD := rfl
@[simp] theorem completeDefilter_work : (completeDefilter s).work = Work.idle := rfl
@[simp] theorem completeDefilter_pending : (completeDefilter s).pending = s.pending := rfl
@[simp] theorem completeDefilter_hostData : (completeDefilter s).hostData = s.hostData := rfl
@[simp] theorem completeDefilter_freeCtr : (completeDefilter s).freeCtr = s.freeCtr := rfl
@[simp] theorem completeDefilter_params : (completeDefilter s).params = s.params := rfl

/-! ### setFinal -/

@[simp] theorem setFinal_cmd (f : Bool) : (setFinal f s).cmd = s.cmd := rfl
@[simp] theorem setFinal_status (f : Bool) : (setFinal f s).status = s.status := rfl
@[simp] theorem setFinal_err (f : Bool) : (setFinal f s).err = s.err := rfl
@[simp] theorem setFinal_warn (f : Bool) : (setFinal f s).warn = s.warn := rfl
@[simp] theorem setFinal_arg0 (f : Bool) : (setFinal f s).arg0 = s.arg0 := rfl
@[simp] theorem setFinal_arg1 (f : Bool) : (setFinal f s).arg1 = s.arg1 := rfl
@[simp] theorem setFinal_arg2 (f : Bool) : (setFinal f s).arg2 = s.arg2 := rfl
@[simp] theorem setFinal_res0 (f : Bool) : (setFinal f s).res0 = s.res0 := rfl
@[simp] theorem setFinal_brLen (f : Bool) : (setFinal f s).brLen = s.brLen := rfl
@[simp] theorem setFinal_brPos (f : Bool) : (setFinal f s).brPos = s.brPos := rfl
@[simp] theorem setFinal_brOrder (f : Bool) : (setFinal f s).brOrder = s.brOrder := rfl
@[simp] theorem setFinal_olen (f : Bool) : (setFinal f s).olen = s.olen := rfl
@[simp] theorem setFinal_rlen (f : Bool) : (setFinal f s).rlen = s.rlen := rfl
@[simp] theorem setFinal_zhdr (f : Bool) : (setFinal f s).zhdr = s.zhdr := rfl
@[simp] theorem setFinal_htValid (f : Bool) : (setFinal f s).htValid = s.htValid := rfl
@[simp] theorem setFinal_ibuf (f : Bool) : (setFinal f s).ibuf = s.ibuf := rfl
@[simp] theorem setFinal_obuf (f : Bool) : (setFinal f s).obuf = s.obuf := rfl
@[simp] theorem setFinal_rbuf (f : Bool) : (setFinal f s).rbuf = s.rbuf := rfl
@[simp] theorem setFinal_lens (f : Bool) : (setFinal f s).lens = s.lens := rfl
@[simp] theorem setFinal_slotCL (f : Bool) : (setFinal f s).slotCL = s.slotCL := rfl
@[simp] theorem setFinal_slotLL (f : Bool) : (setFinal f s).slotLL = s.slotLL := rfl
@[simp] theorem setFinal_slotD (f : Bool) : (setFinal f s).slotD = s.slotD := rfl
@[simp] theorem setFinal_work (f : Bool) : (setFinal f s).work = { s.work with bfinal := f } := rfl
@[simp] theorem setFinal_pending (f : Bool) : (setFinal f s).pending = s.pending := rfl
@[simp] theorem setFinal_hostData (f : Bool) : (setFinal f s).hostData = s.hostData := rfl
@[simp] theorem setFinal_freeCtr (f : Bool) : (setFinal f s).freeCtr = s.freeCtr := rfl
@[simp] theorem setFinal_params (f : Bool) : (setFinal f s).params = s.params := rfl

/-! ### enterInflate -/

@[simp] theorem enterInflate_cmd : (enterInflate s).cmd = s.cmd := rfl
@[simp] theorem enterInflate_status : (enterInflate s).status = .busy := rfl
@[simp] theorem enterInflate_err : (enterInflate s).err = s.err := rfl
@[simp] theorem enterInflate_warn : (enterInflate s).warn = s.warn := rfl
@[simp] theorem enterInflate_arg0 : (enterInflate s).arg0 = s.arg0 := rfl
@[simp] theorem enterInflate_arg1 : (enterInflate s).arg1 = s.arg1 := rfl
@[simp] theorem enterInflate_arg2 : (enterInflate s).arg2 = s.arg2 := rfl
@[simp] theorem enterInflate_res0 : (enterInflate s).res0 = s.res0 := rfl
@[simp] theorem enterInflate_brLen : (enterInflate s).brLen = s.arg0 := rfl
@[simp] theorem enterInflate_brPos : (enterInflate s).brPos = 0 := rfl
@[simp] theorem enterInflate_brOrder : (enterInflate s).brOrder = 1 := rfl
@[simp] theorem enterInflate_olen : (enterInflate s).olen = 0 := rfl
@[simp] theorem enterInflate_rlen : (enterInflate s).rlen = s.rlen := rfl
@[simp] theorem enterInflate_zhdr : (enterInflate s).zhdr = s.zhdr := rfl
@[simp] theorem enterInflate_htValid : (enterInflate s).htValid = 0 := rfl
@[simp] theorem enterInflate_ibuf : (enterInflate s).ibuf = s.ibuf := rfl
@[simp] theorem enterInflate_obuf : (enterInflate s).obuf = s.obuf := rfl
@[simp] theorem enterInflate_rbuf : (enterInflate s).rbuf = s.rbuf := rfl
@[simp] theorem enterInflate_lens : (enterInflate s).lens = s.lens := rfl
@[simp] theorem enterInflate_slotCL : (enterInflate s).slotCL = s.slotCL := rfl
@[simp] theorem enterInflate_slotLL : (enterInflate s).slotLL = s.slotLL := rfl
@[simp] theorem enterInflate_slotD : (enterInflate s).slotD = s.slotD := rfl
@[simp] theorem enterInflate_work : (enterInflate s).work = Work.idle := rfl
@[simp] theorem enterInflate_pending : (enterInflate s).pending = s.pending := rfl
@[simp] theorem enterInflate_hostData : (enterInflate s).hostData = s.hostData := rfl
@[simp] theorem enterInflate_freeCtr : (enterInflate s).freeCtr = s.freeCtr := rfl
@[simp] theorem enterInflate_params : (enterInflate s).params = s.params := rfl

/-! ### enterBlocks -/

@[simp] theorem enterBlocks_cmd : (enterBlocks s).cmd = s.cmd := rfl
@[simp] theorem enterBlocks_status : (enterBlocks s).status = s.status := rfl
@[simp] theorem enterBlocks_err : (enterBlocks s).err = s.err := rfl
@[simp] theorem enterBlocks_warn : (enterBlocks s).warn = s.warn := rfl
@[simp] theorem enterBlocks_arg0 : (enterBlocks s).arg0 = s.arg0 := rfl
@[simp] theorem enterBlocks_arg1 : (enterBlocks s).arg1 = s.arg1 := rfl
@[simp] theorem enterBlocks_arg2 : (enterBlocks s).arg2 = s.arg2 := rfl
@[simp] theorem enterBlocks_res0 : (enterBlocks s).res0 = s.res0 := rfl
@[simp] theorem enterBlocks_brLen : (enterBlocks s).brLen = s.brLen := rfl
@[simp] theorem enterBlocks_brPos : (enterBlocks s).brPos = s.brPos := rfl
@[simp] theorem enterBlocks_brOrder : (enterBlocks s).brOrder = s.brOrder := rfl
@[simp] theorem enterBlocks_olen : (enterBlocks s).olen = s.olen := rfl
@[simp] theorem enterBlocks_rlen : (enterBlocks s).rlen = s.rlen := rfl
@[simp] theorem enterBlocks_zhdr : (enterBlocks s).zhdr = s.zhdr := rfl
@[simp] theorem enterBlocks_htValid : (enterBlocks s).htValid = s.htValid := rfl
@[simp] theorem enterBlocks_ibuf : (enterBlocks s).ibuf = s.ibuf := rfl
@[simp] theorem enterBlocks_obuf : (enterBlocks s).obuf = s.obuf := rfl
@[simp] theorem enterBlocks_rbuf : (enterBlocks s).rbuf = s.rbuf := rfl
@[simp] theorem enterBlocks_lens : (enterBlocks s).lens = s.lens := rfl
@[simp] theorem enterBlocks_slotCL : (enterBlocks s).slotCL = s.slotCL := rfl
@[simp] theorem enterBlocks_slotLL : (enterBlocks s).slotLL = s.slotLL := rfl
@[simp] theorem enterBlocks_slotD : (enterBlocks s).slotD = s.slotD := rfl
@[simp] theorem enterBlocks_work : (enterBlocks s).work = { Work.idle with level := .blkhdr } := rfl
@[simp] theorem enterBlocks_pending : (enterBlocks s).pending = s.pending := rfl
@[simp] theorem enterBlocks_hostData : (enterBlocks s).hostData = s.hostData := rfl
@[simp] theorem enterBlocks_freeCtr : (enterBlocks s).freeCtr = s.freeCtr := rfl
@[simp] theorem enterBlocks_params : (enterBlocks s).params = s.params := rfl

/-! ### enterRows -/

@[simp] theorem enterRows_cmd : (enterRows s).cmd = s.cmd := rfl
@[simp] theorem enterRows_status : (enterRows s).status = .busy := rfl
@[simp] theorem enterRows_err : (enterRows s).err = s.err := rfl
@[simp] theorem enterRows_warn : (enterRows s).warn = s.warn := rfl
@[simp] theorem enterRows_arg0 : (enterRows s).arg0 = s.arg0 := rfl
@[simp] theorem enterRows_arg1 : (enterRows s).arg1 = s.arg1 := rfl
@[simp] theorem enterRows_arg2 : (enterRows s).arg2 = s.arg2 := rfl
@[simp] theorem enterRows_res0 : (enterRows s).res0 = s.res0 := rfl
@[simp] theorem enterRows_brLen : (enterRows s).brLen = s.brLen := rfl
@[simp] theorem enterRows_brPos : (enterRows s).brPos = s.brPos := rfl
@[simp] theorem enterRows_brOrder : (enterRows s).brOrder = s.brOrder := rfl
@[simp] theorem enterRows_olen : (enterRows s).olen = s.olen := rfl
@[simp] theorem enterRows_rlen : (enterRows s).rlen = s.rlen := rfl
@[simp] theorem enterRows_zhdr : (enterRows s).zhdr = s.zhdr := rfl
@[simp] theorem enterRows_htValid : (enterRows s).htValid = s.htValid := rfl
@[simp] theorem enterRows_ibuf : (enterRows s).ibuf = s.ibuf := rfl
@[simp] theorem enterRows_obuf : (enterRows s).obuf = s.obuf := rfl
@[simp] theorem enterRows_rbuf : (enterRows s).rbuf = s.rbuf := rfl
@[simp] theorem enterRows_lens : (enterRows s).lens = s.lens := rfl
@[simp] theorem enterRows_slotCL : (enterRows s).slotCL = s.slotCL := rfl
@[simp] theorem enterRows_slotLL : (enterRows s).slotLL = s.slotLL := rfl
@[simp] theorem enterRows_slotD : (enterRows s).slotD = s.slotD := rfl
@[simp] theorem enterRows_work : (enterRows s).work = { Work.idle with level := .ftag } := rfl
@[simp] theorem enterRows_pending : (enterRows s).pending = s.pending := rfl
@[simp] theorem enterRows_hostData : (enterRows s).hostData = s.hostData := rfl
@[simp] theorem enterRows_freeCtr : (enterRows s).freeCtr = s.freeCtr := rfl
@[simp] theorem enterRows_params : (enterRows s).params = s.params := rfl

/-! ### enterSymbols -/

@[simp] theorem enterSymbols_cmd (f : Bool) : (enterSymbols f s).cmd = s.cmd := rfl
@[simp] theorem enterSymbols_status (f : Bool) : (enterSymbols f s).status = s.status := rfl
@[simp] theorem enterSymbols_err (f : Bool) : (enterSymbols f s).err = s.err := rfl
@[simp] theorem enterSymbols_warn (f : Bool) : (enterSymbols f s).warn = s.warn := rfl
@[simp] theorem enterSymbols_arg0 (f : Bool) : (enterSymbols f s).arg0 = s.arg0 := rfl
@[simp] theorem enterSymbols_arg1 (f : Bool) : (enterSymbols f s).arg1 = s.arg1 := rfl
@[simp] theorem enterSymbols_arg2 (f : Bool) : (enterSymbols f s).arg2 = s.arg2 := rfl
@[simp] theorem enterSymbols_res0 (f : Bool) : (enterSymbols f s).res0 = s.res0 := rfl
@[simp] theorem enterSymbols_brLen (f : Bool) : (enterSymbols f s).brLen = s.brLen := rfl
@[simp] theorem enterSymbols_brPos (f : Bool) : (enterSymbols f s).brPos = s.brPos := rfl
@[simp] theorem enterSymbols_brOrder (f : Bool) : (enterSymbols f s).brOrder = s.brOrder := rfl
@[simp] theorem enterSymbols_olen (f : Bool) : (enterSymbols f s).olen = s.olen := rfl
@[simp] theorem enterSymbols_rlen (f : Bool) : (enterSymbols f s).rlen = s.rlen := rfl
@[simp] theorem enterSymbols_zhdr (f : Bool) : (enterSymbols f s).zhdr = s.zhdr := rfl
@[simp] theorem enterSymbols_htValid (f : Bool) : (enterSymbols f s).htValid = s.htValid := rfl
@[simp] theorem enterSymbols_ibuf (f : Bool) : (enterSymbols f s).ibuf = s.ibuf := rfl
@[simp] theorem enterSymbols_obuf (f : Bool) : (enterSymbols f s).obuf = s.obuf := rfl
@[simp] theorem enterSymbols_rbuf (f : Bool) : (enterSymbols f s).rbuf = s.rbuf := rfl
@[simp] theorem enterSymbols_lens (f : Bool) : (enterSymbols f s).lens = s.lens := rfl
@[simp] theorem enterSymbols_slotCL (f : Bool) : (enterSymbols f s).slotCL = s.slotCL := rfl
@[simp] theorem enterSymbols_slotLL (f : Bool) : (enterSymbols f s).slotLL = s.slotLL := rfl
@[simp] theorem enterSymbols_slotD (f : Bool) : (enterSymbols f s).slotD = s.slotD := rfl
@[simp] theorem enterSymbols_work (f : Bool) : (enterSymbols f s).work = { Work.idle with level := .llsym, bfinal := s.work.bfinal, fixedDist := f } := rfl
@[simp] theorem enterSymbols_pending (f : Bool) : (enterSymbols f s).pending = s.pending := rfl
@[simp] theorem enterSymbols_hostData (f : Bool) : (enterSymbols f s).hostData = s.hostData := rfl
@[simp] theorem enterSymbols_freeCtr (f : Bool) : (enterSymbols f s).freeCtr = s.freeCtr := rfl
@[simp] theorem enterSymbols_params (f : Bool) : (enterSymbols f s).params = s.params := rfl

end Sys2Proof.Machine
end

