-- ==== Sys2Proof/Laws/Memory.lean ====
section
/-! SUPPORT. The laws of the memories: a read after a write, and that every operation keeps the canonical form and
the range. -/

namespace Sys2Proof.Machine

variable {w : Nat}

theorem lookupCell_insertCell_same (l : List (Nat × BitVec w)) (a : Nat) (v : BitVec w) :
    lookupCell (insertCell a v l) a = some v := by
  induction l with
  | nil => simp [insertCell, lookupCell]
  | cons p rest ih =>
    obtain ⟨k, x⟩ := p
    unfold insertCell
    split
    · simp [lookupCell]
    · split
      · simp [lookupCell]
      · have : k ≠ a := by omega
        simp [lookupCell, this, ih]

theorem lookupCell_insertCell_other (l : List (Nat × BitVec w)) {a b : Nat} (v : BitVec w) (h : a ≠ b) :
    lookupCell (insertCell a v l) b = lookupCell l b := by
  induction l with
  | nil => simp [insertCell, lookupCell, h]
  | cons p rest ih =>
    obtain ⟨k, x⟩ := p
    unfold insertCell
    split
    · simp [lookupCell, h]
    · split
      · subst a
        simp [lookupCell, h]
      · simp [lookupCell, ih]

@[simp] theorem Memory.get_set_same (m : Memory w) (a : Nat) (v : BitVec w) : (m.set a v).get a = v := by
  simp [Memory.get, Memory.set, lookupCell_insertCell_same]

theorem Memory.get_set_other (m : Memory w) {a b : Nat} (v : BitVec w) (h : a ≠ b) :
    (m.set a v).get b = m.get b := by
  simp [Memory.get, Memory.set, lookupCell_insertCell_other _ _ h]

theorem Memory.get_set (m : Memory w) (a b : Nat) (v : BitVec w) :
    (m.set a v).get b = if a = b then v else m.get b := by
  split
  · subst b; simp
  · exact m.get_set_other v ‹_›

theorem mem_insertCell {l : List (Nat × BitVec w)} {a : Nat} {v : BitVec w} {p : Nat × BitVec w}
    (h : p ∈ insertCell a v l) : p = (a, v) ∨ p ∈ l := by
  induction l with
  | nil => simpa [insertCell] using h
  | cons q rest ih =>
    unfold insertCell at h
    split at h
    · simpa using h
    · split at h <;> simp only [List.mem_cons] at h ⊢
      · tauto
      · rcases h with h | h
        · exact .inr (.inl h)
        · have := ih h; tauto

theorem insertCell_sorted {l : List (Nat × BitVec w)} (a : Nat) (v : BitVec w)
    (h : l.Pairwise fun p q => p.1 < q.1) : (insertCell a v l).Pairwise fun p q => p.1 < q.1 := by
  induction l with
  | nil => simp [insertCell]
  | cons q rest ih =>
    obtain ⟨k, x⟩ := q
    rw [List.pairwise_cons] at h
    unfold insertCell
    split
    · rename_i hak
      refine List.pairwise_cons.2 ⟨fun p hp => ?_, List.pairwise_cons.2 h⟩
      rcases List.mem_cons.1 hp with rfl | hp
      · exact hak
      · have := h.1 p hp
        simp only at this ⊢
        omega
    · split
      · subst a
        exact List.pairwise_cons.2 h
      · refine List.pairwise_cons.2 ⟨fun p hp => ?_, ih h.2⟩
        rcases mem_insertCell hp with rfl | hp
        · simp only
          omega
        · exact h.1 p hp

theorem Memory.set_wf {m : Memory w} (h : m.wf) (a : Nat) (v : BitVec w) : (m.set a v).wf :=
  insertCell_sorted a v h

theorem Memory.set_within {m : Memory w} {cap : Nat} (h : m.within cap) {a : Nat} (ha : a < cap)
    (v : BitVec w) : (m.set a v).within cap := by
  intro p hp
  rcases mem_insertCell hp with rfl | hp
  · exact ha
  · exact h p hp

theorem Memory.unspecified_wf (g : Nat) : (Memory.unspecified g : Memory w).wf := List.Pairwise.nil

theorem Memory.unspecified_within (g cap : Nat) : (Memory.unspecified g : Memory w).within cap := by
  simp [Memory.unspecified]

theorem Memory.load_wf {m : Memory w} (h : m.wf) (a : Nat) (vs : List (BitVec w)) : (m.load a vs).wf := by
  induction vs generalizing m a with
  | nil => exact h
  | cons v vs ih => exact ih (Memory.set_wf h a v) (a + 1)

theorem Memory.load_within {m : Memory w} {cap : Nat} (h : m.within cap) {a : Nat} {vs : List (BitVec w)}
    (ha : a + vs.length ≤ cap) : (m.load a vs).within cap := by
  induction vs generalizing m a with
  | nil => exact h
  | cons v vs ih =>
    rw [List.length_cons] at ha
    exact ih (Memory.set_within h (by omega) v) (by omega)

/-- A cell below the loaded ones is not changed. -/
theorem Memory.load_get_below (m : Memory w) {a b : Nat} (vs : List (BitVec w)) (h : b < a) :
    (m.load a vs).get b = m.get b := by
  induction vs generalizing m a with
  | nil => rfl
  | cons v vs ih =>
    rw [Memory.load, ih (m.set a v) (by omega), Memory.get_set_other _ _ (by omega)]

/-- A loaded cell holds the value loaded into it. -/
theorem Memory.load_get (m : Memory w) (a : Nat) (vs : List (BitVec w)) {i : Nat} (h : i < vs.length) :
    (m.load a vs).get (a + i) = vs[i] := by
  induction vs generalizing m a i with
  | nil => simp at h
  | cons v vs ih =>
    rw [Memory.load]
    cases i with
    | zero => simpa using (m.set a v).load_get_below vs (Nat.lt_succ_self a)
    | succ i =>
      have := ih (m.set a v) (a + 1) (i := i) (by simpa using h)
      rw [show a + (i + 1) = a + 1 + i by omega, this]
      rfl

@[simp] theorem Memory.read_length (m : Memory w) (a n : Nat) : (m.read a n).length = n := by
  simp [Memory.read]

end Sys2Proof.Machine
end

