-- ==== Sys2Proof/Laws/Ops.lean ====
section
/-! SUPPORT. What the shared operations can do, said once: for each, the cases of its result and the fields it can
change. Later proofs cite these instead of unfolding the operations. -/

namespace Sys2Proof.Machine

/-- The state of a result, whichever way it ended. -/
def Res.state {α : Type} : Res α → State
  | .ok _ s => s
  | .fail _ s => s

@[simp] theorem Res.state_ok {α : Type} (a : α) (s : State) : (Res.ok a s).state = s := rfl
@[simp] theorem Res.state_fail {α : Type} (k : Failure) (s : State) : (Res.fail k s : Res α).state = s := rfl

@[simp] theorem Res.andThen_ok {α β : Type} (a : α) (s : State) (f : α → State → Res β) :
    (Res.ok a s).andThen f = f a s := rfl
@[simp] theorem Res.andThen_fail {α β : Type} (k : Failure) (s : State) (f : α → State → Res β) :
    (Res.fail k s : Res α).andThen f = .fail k s := rfl

theorem Res.andThen_eq_ok {α β : Type} {r : Res α} {f : α → State → Res β} {b : β} {t : State} :
    r.andThen f = .ok b t ↔ ∃ a s, r = .ok a s ∧ f a s = .ok b t := by
  cases r <;> simp [Res.andThen]

theorem Res.andThen_eq_fail {α β : Type} {r : Res α} {f : α → State → Res β} {k : Failure} {t : State} :
    r.andThen f = .fail k t ↔ r = .fail k t ∨ ∃ a s, r = .ok a s ∧ f a s = .fail k t := by
  cases r <;> simp [Res.andThen]

/-! ### Settling -/

@[simp] theorem settleInflate_ok (s : State) : settleInflate (.ok () s) = .next s := rfl
@[simp] theorem settleInflate_fail (k : Failure) (s : State) :
    settleInflate (.fail k s) = .next (raiseInflate k s) := rfl

theorem settleInflate_next (r : Res Unit) : ∃ t, settleInflate r = .next t := ⟨_, rfl⟩

/-! ### The bit reader -/

theorem advance_advance (m n : Nat) (s : State) : advance m (advance n s) = advance (n + m) s := by
  simp [advance, BitVec.ofNat_add, BitVec.add_assoc]

@[simp] theorem advance_zero (s : State) : advance 0 s = s := by simp [advance]

theorem readCode_of_le {n : Nat} {s : State} (h : n ≤ remainingBits s) :
    readCode n s = .ok (packCode s s.brPos.toNat n) (advance n s) := by
  simp [readCode, Nat.not_lt.2 h]

theorem readCode_of_lt {n : Nat} {s : State} (h : remainingBits s < n) :
    readCode n s = .fail .insufficientBits s := by
  simp [readCode, h]

theorem readCode_cases (n : Nat) (s : State) :
    (n ≤ remainingBits s ∧ readCode n s = .ok (packCode s s.brPos.toNat n) (advance n s)) ∨
    (remainingBits s < n ∧ readCode n s = .fail .insufficientBits s) := by
  rcases Nat.lt_or_ge (remainingBits s) n with h | h
  · exact .inr ⟨h, readCode_of_lt h⟩
  · exact .inl ⟨h, readCode_of_le h⟩

theorem readReversed_of_le {n : Nat} {s : State} (h : n ≤ remainingBits s) :
    readReversed n s = .ok (packInteger s s.brPos.toNat n) (advance n s) := by
  simp [readReversed, Nat.not_lt.2 h]

theorem readReversed_of_lt {n : Nat} {s : State} (h : remainingBits s < n) :
    readReversed n s = .fail .insufficientBits s := by
  simp [readReversed, h]

theorem readReversed_cases (n : Nat) (s : State) :
    (n ≤ remainingBits s ∧ readReversed n s = .ok (packInteger s s.brPos.toNat n) (advance n s)) ∨
    (remainingBits s < n ∧ readReversed n s = .fail .insufficientBits s) := by
  rcases Nat.lt_or_ge (remainingBits s) n with h | h
  · exact .inr ⟨h, readReversed_of_lt h⟩
  · exact .inl ⟨h, readReversed_of_le h⟩

theorem packCode_lt (s : State) (k n : Nat) : packCode s k n < 2 ^ n := by
  induction n with
  | zero => simp [packCode]
  | succ n ih =>
    have : (streamBit s (k + n)).toNat < 2 := Bool.toNat_lt _
    rw [packCode, Nat.pow_succ]
    omega

theorem packInteger_lt (s : State) (k n : Nat) : packInteger s k n < 2 ^ n := by
  induction n with
  | zero => simp [packInteger]
  | succ n ih =>
    have hb : (streamBit s (k + n)).toNat ≤ 1 := Bool.toNat_le _
    have := Nat.mul_le_mul_right (2 ^ n) hb
    rw [packInteger, Nat.pow_succ]
    omega

/-- The bits of a stream depend on `IBUF` and `BR_ORDER` only. -/
theorem streamBit_congr {s t : State} (hi : t.ibuf = s.ibuf) (ho : t.brOrder = s.brOrder) (k : Nat) :
    streamBit t k = streamBit s k := by
  simp [streamBit, hi, ho]

theorem packCode_congr {s t : State} (hi : t.ibuf = s.ibuf) (ho : t.brOrder = s.brOrder) (k n : Nat) :
    packCode t k n = packCode s k n := by
  induction n with
  | zero => rfl
  | succ n ih => simp [packCode, ih, streamBit_congr hi ho]

theorem packInteger_congr {s t : State} (hi : t.ibuf = s.ibuf) (ho : t.brOrder = s.brOrder) (k n : Nat) :
    packInteger t k n = packInteger s k n := by
  induction n with
  | zero => rfl
  | succ n ih => simp [packInteger, ih, streamBit_congr hi ho]

/-- Moving the cursor by at most what remains: the new cursor as a number. -/
theorem advance_brPos_toNat {n : Nat} {s : State} (hl : 8 * s.brLen.toNat < 2 ^ 32) (h : n ≤ remainingBits s)
    (hp : s.brPos.toNat ≤ 8 * s.brLen.toNat) : (advance n s).brPos.toNat = s.brPos.toNat + n := by
  simp only [remainingBits] at h
  simp only [advance_brPos, BitVec.toNat_add, BitVec.toNat_ofNat]
  omega

theorem remainingBits_advance {n : Nat} {s : State} (hl : 8 * s.brLen.toNat < 2 ^ 32)
    (h : n ≤ remainingBits s) (hp : s.brPos.toNat ≤ 8 * s.brLen.toNat) :
    remainingBits (advance n s) = remainingBits s - n := by
  have := advance_brPos_toNat hl h hp
  simp only [remainingBits, advance_brLen] at *
  omega

/-! ### Output -/

theorem append_cases (b : Byte) (s : State) :
    (s.params.obufCap ≤ s.olen.toNat ∧ append b s = .fail .bufferOverflow s) ∨
    (s.olen.toNat < s.params.obufCap ∧
      append b s = .ok () { s with obuf := s.obuf.set s.olen.toNat b, olen := s.olen + 1 }) := by
  rcases Nat.lt_or_ge s.olen.toNat s.params.obufCap with h | h
  · exact .inr ⟨h, by simp [append, h]⟩
  · exact .inl ⟨h, by simp [append, h]⟩

theorem append_of_lt {b : Byte} {s : State} (h : s.olen.toNat < s.params.obufCap) :
    append b s = .ok () { s with obuf := s.obuf.set s.olen.toNat b, olen := s.olen + 1 } := by
  simp [append, h]

/-- What `copyLoop` can change: `OBUF` and `OLEN`. -/
theorem copyLoop_state (n d : Nat) (s : State) :
    (copyLoop n d s).state =
      { s with obuf := (copyLoop n d s).state.obuf, olen := (copyLoop n d s).state.olen } := by
  induction n generalizing s with
  | zero => rfl
  | succ n ih =>
    rcases append_cases (s.obuf.get (s.olen.toNat - d)) s with ⟨_, h⟩ | ⟨_, h⟩
    · simp [copyLoop, h]
    · simp only [copyLoop, h, Res.andThen_ok]
      rw [ih]

/-- The only failure of `copyLoop` is `BufferOverflow`. -/
theorem copyLoop_fail {n d : Nat} {s t : State} {k : Failure} (h : copyLoop n d s = .fail k t) :
    k = .bufferOverflow := by
  induction n generalizing s with
  | zero => simp [copyLoop] at h
  | succ n ih =>
    rcases append_cases (s.obuf.get (s.olen.toNat - d)) s with ⟨_, ha⟩ | ⟨_, ha⟩
    · simp only [copyLoop, ha, Res.andThen_fail, Res.fail.injEq] at h
      exact h.1.symm
    · simp only [copyLoop, ha, Res.andThen_ok] at h
      exact ih h

/-- A copy that fits: `OLEN` grows by its length, the bytes below the old `OLEN` and those from the new one on are
kept, and each copied byte equals the byte `d` before it (R351, R352). -/
theorem copyLoop_fits {n d : Nat} {s : State} (hc : s.params.obufCap < 2 ^ 32) (hd : 1 ≤ d)
    (hf : s.olen.toNat + n ≤ s.params.obufCap) :
    ∃ t, copyLoop n d s = .ok () t ∧ t.olen.toNat = s.olen.toNat + n ∧
      (∀ a, a < s.olen.toNat → t.obuf.get a = s.obuf.get a) ∧
      (∀ a, s.olen.toNat + n ≤ a → t.obuf.get a = s.obuf.get a) ∧
      (d ≤ s.olen.toNat →
        ∀ i, i < n → t.obuf.get (s.olen.toNat + i) = t.obuf.get (s.olen.toNat + i - d)) := by
  induction n generalizing s with
  | zero => exact ⟨s, rfl, rfl, fun _ _ => rfl, fun _ _ => rfl, fun _ i hi => by omega⟩
  | succ n ih =>
    have ho : (s.olen + 1).toNat = s.olen.toNat + 1 := by
      have h1 : (1 : Word).toNat = 1 := rfl
      rw [BitVec.toNat_add, h1]
      omega
    obtain ⟨t, h1, h2, h3, h4, h5⟩ :=
      ih (s := { s with
        obuf := s.obuf.set s.olen.toNat (s.obuf.get (s.olen.toNat - d)), olen := s.olen + 1 }) hc
        (by simp only [ho]; omega)
    simp only [ho] at h2 h3 h4 h5
    refine ⟨t, ?_, by omega, fun a ha => ?_, fun a ha => ?_, fun hdo i hi => ?_⟩
    · simp only [copyLoop, append_of_lt (show s.olen.toNat < s.params.obufCap by omega), Res.andThen_ok, h1]
    · rw [h3 a (by omega), Memory.get_set_other _ _ (by omega)]
    · rw [h4 a (by omega), Memory.get_set_other _ _ (by omega)]
    · rcases Nat.eq_zero_or_pos i with rfl | hi0
      · rw [Nat.add_zero, h3 _ (by omega), h3 _ (by omega), Memory.get_set_same,
          Memory.get_set_other _ _ (by omega)]
      · have := h5 (by omega) (i - 1) (by omega)
        rwa [show s.olen.toNat + 1 + (i - 1) = s.olen.toNat + i by omega] at this

/-- What a copy can change: `OBUF` and `OLEN`. -/
theorem copy_state (len d : Nat) (s : State) :
    (copy len d s).state = { s with obuf := (copy len d s).state.obuf, olen := (copy len d s).state.olen } := by
  unfold copy
  split
  · rfl
  · exact copyLoop_state len d s

/-- What `copyStored` can change: the cursor, `OBUF` and `OLEN`. -/
theorem copyStored_state (n : Nat) (s : State) :
    (copyStored n s).state =
      { s with
        brPos := (copyStored n s).state.brPos
        obuf := (copyStored n s).state.obuf
        olen := (copyStored n s).state.olen } := by
  induction n generalizing s with
  | zero => rfl
  | succ n ih =>
    rcases readReversed_cases 8 s with ⟨_, h⟩ | ⟨_, h⟩
    · rcases append_cases (BitVec.ofNat 8 (packInteger s s.brPos.toNat 8)) (advance 8 s) with ⟨_, h'⟩ | ⟨_, h'⟩
      · simp only [copyStored, h, Res.andThen_ok, h', Res.andThen_fail, Res.state_fail]
        rfl
      · simp only [copyStored, h, h', Res.andThen_ok]
        rw [ih]
        rfl
    · simp [copyStored, h]

/-! ### Huffman decoding -/

/-- What `decodeLoop` answers: a symbol of the table after one or more bits, or `TruncatedHuffmanCode` after some. -/
theorem decodeLoop_cases (t : Table) (n len acc : Nat) (s : State) :
    (∃ m sym, 1 ≤ m ∧ m ≤ n ∧ (∃ e ∈ t.entries, e.sym = sym ∧ e.len = len + m) ∧
      decodeLoop t n len acc s = .ok sym (advance m s)) ∨
    (∃ m, m ≤ n ∧ decodeLoop t n len acc s = .fail .truncatedHuffmanCode (advance m s)) := by
  induction n generalizing len acc s with
  | zero => exact .inr ⟨0, Nat.le_refl 0, by simp [decodeLoop]⟩
  | succ n ih =>
    by_cases hr : remainingBits s = 0
    · exact .inr ⟨0, Nat.zero_le _, by simp [decodeLoop, hr]⟩
    · cases hf : t.find (len + 1) (acc * 2 + (streamBit s s.brPos.toNat).toNat) with
      | some sym =>
        refine .inl ⟨1, sym, Nat.le_refl 1, by omega, ?_, by simp [decodeLoop, hr, hf]⟩
        simp only [Table.find, Option.map_eq_some_iff] at hf
        obtain ⟨e, he, hs⟩ := hf
        have hp := List.find?_some he
        simp only [Bool.and_eq_true, beq_iff_eq] at hp
        exact ⟨e, List.mem_of_find?_eq_some he, hs, hp.1⟩
      | none =>
        have step : decodeLoop t (n + 1) len acc s =
            decodeLoop t n (len + 1) (acc * 2 + (streamBit s s.brPos.toNat).toNat) (advance 1 s) := by
          simp [decodeLoop, hr, hf]
        rcases ih (len + 1) (acc * 2 + (streamBit s s.brPos.toNat).toNat) (advance 1 s) with
          ⟨m, sym, h1, h2, ⟨e, he, hs, hl⟩, h⟩ | ⟨m, h2, h⟩
        · exact .inl ⟨1 + m, sym, by omega, by omega, ⟨e, he, hs, by omega⟩,
            by rw [step, h, advance_advance]⟩
        · exact .inr ⟨1 + m, by omega, by rw [step, h, advance_advance]⟩

/-- `decode_one` never moves the cursor past the end: the bits it consumed were there. -/
theorem decodeLoop_le (t : Table) (n len acc : Nat) {s : State} (hl : 8 * s.brLen.toNat < 2 ^ 32)
    (hp : s.brPos.toNat ≤ 8 * s.brLen.toNat) :
    s.brPos.toNat ≤ (decodeLoop t n len acc s).state.brPos.toNat ∧
      (decodeLoop t n len acc s).state.brPos.toNat ≤ 8 * s.brLen.toNat := by
  induction n generalizing len acc s with
  | zero => simp [decodeLoop, hp]
  | succ n ih =>
    by_cases hr : remainingBits s = 0
    · simp [decodeLoop, hr, hp]
    · have h1 : 1 ≤ remainingBits s := by omega
      have ha := advance_brPos_toNat hl h1 hp
      have hle : (advance 1 s).brPos.toNat ≤ 8 * (advance 1 s).brLen.toNat := by
        simp only [remainingBits] at h1
        simp only [ha, advance_brLen]
        omega
      cases hf : t.find (len + 1) (acc * 2 + (streamBit s s.brPos.toNat).toNat) with
      | some sym =>
        simp only [decodeLoop, hr, hf, if_false, Res.state_ok]
        simp only [advance_brLen] at hle
        omega
      | none =>
        have := ih (len + 1) (acc * 2 + (streamBit s s.brPos.toNat).toNat) (s := advance 1 s) hl hle
        simp only [decodeLoop, hr, hf, if_false]
        simp only [advance_brLen] at this
        omega

/-- What `decodeOne` answers: a symbol of the slot's table after one or more bits, or `TruncatedHuffmanCode`. -/
theorem decodeOne_cases (k : Nat) (s : State) :
    (∃ t m sym, slotTable k s = some t ∧ 1 ≤ m ∧ m ≤ t.maxlen ∧ (∃ e ∈ t.entries, e.sym = sym) ∧
      decodeOne k s = .ok sym (advance m s)) ∨
    (∃ m, decodeOne k s = .fail .truncatedHuffmanCode (advance m s)) := by
  unfold decodeOne
  cases hs : slotTable k s with
  | none => exact .inr ⟨0, by simp⟩
  | some t =>
    rcases decodeLoop_cases t t.maxlen 0 0 s with ⟨m, sym, h1, h2, ⟨e, he, hsym, _⟩, h⟩ | ⟨m, _, h⟩
    · exact .inl ⟨t, m, sym, rfl, h1, h2, ⟨e, he, hsym⟩, h⟩
    · exact .inr ⟨m, h⟩

theorem decodeOne_le (k : Nat) {s : State} (hl : 8 * s.brLen.toNat < 2 ^ 32)
    (hp : s.brPos.toNat ≤ 8 * s.brLen.toNat) :
    s.brPos.toNat ≤ (decodeOne k s).state.brPos.toNat ∧
      (decodeOne k s).state.brPos.toNat ≤ 8 * s.brLen.toNat := by
  unfold decodeOne
  cases slotTable k s with
  | none => exact ⟨Nat.le_refl _, hp⟩
  | some t => exact decodeLoop_le t _ _ _ hl hp

/-- One turn of the loop of `decode_one`, `len` bits into the stream from `s` on. -/
theorem decodeLoop_turn (t : Table) (n : Nat) {len : Nat} {s : State} (hl : 8 * s.brLen.toNat < 2 ^ 32)
    (hp : s.brPos.toNat ≤ 8 * s.brLen.toNat) (h : len < remainingBits s) :
    decodeLoop t (n + 1) len (packCode s s.brPos.toNat len) (advance len s) =
      match t.find (len + 1) (packCode s s.brPos.toNat (len + 1)) with
      | some sym => .ok sym (advance (len + 1) s)
      | none => decodeLoop t n (len + 1) (packCode s s.brPos.toNat (len + 1)) (advance (len + 1) s) := by
  have hr : remainingBits (advance len s) ≠ 0 := by
    rw [remainingBits_advance hl (Nat.le_of_lt h) hp]
    omega
  have hb : streamBit (advance len s) (advance len s).brPos.toNat = streamBit s (s.brPos.toNat + len) := by
    rw [advance_brPos_toNat hl (Nat.le_of_lt h) hp]
    exact streamBit_congr rfl rfl _
  cases hf : t.find (len + 1) (packCode s s.brPos.toNat len * 2 + (streamBit s (s.brPos.toNat + len)).toNat) <;>
    simp only [decodeLoop, hr, if_false, hb, advance_advance, packCode, hf]

/-- The loop of `decode_one` stops at the shortest prefix that is a key. -/
theorem decodeLoop_found {t : Table} {n len m : Nat} {sym : BitVec 9} {s : State}
    (hl : 8 * s.brLen.toNat < 2 ^ 32) (hp : s.brPos.toNat ≤ 8 * s.brLen.toNat) (hlm : len < m)
    (hmn : m ≤ len + n) (hr : m ≤ remainingBits s) (hf : t.find m (packCode s s.brPos.toNat m) = some sym)
    (hno : ∀ j, len < j → j < m → t.find j (packCode s s.brPos.toNat j) = none) :
    decodeLoop t n len (packCode s s.brPos.toNat len) (advance len s) = .ok sym (advance m s) := by
  induction n generalizing len with
  | zero => omega
  | succ n ih =>
    rw [decodeLoop_turn t n hl hp (by omega)]
    rcases Nat.lt_or_eq_of_le (Nat.succ_le_of_lt hlm) with h | rfl
    · simp only [hno (len + 1) (by omega) h]
      exact ih h (by omega) fun j h1 h2 => hno j (by omega) h2
    · simp only [hf]

/-- With no prefix that is a key, the loop of `decode_one` ends in `TruncatedHuffmanCode`. -/
theorem decodeLoop_none {t : Table} {n len : Nat} {s : State}
    (hl : 8 * s.brLen.toNat < 2 ^ 32) (hp : s.brPos.toNat ≤ 8 * s.brLen.toNat) (hr : len ≤ remainingBits s)
    (hno : ∀ j, len < j → j ≤ remainingBits s → t.find j (packCode s s.brPos.toNat j) = none) :
    ∃ k, decodeLoop t n len (packCode s s.brPos.toNat len) (advance len s) =
      .fail .truncatedHuffmanCode (advance k s) := by
  induction n generalizing len with
  | zero => exact ⟨len, rfl⟩
  | succ n ih =>
    rcases Nat.lt_or_eq_of_le hr with h | h
    · rw [decodeLoop_turn t n hl hp h, hno (len + 1) (by omega) h]
      exact ih h fun j h1 h2 => hno j (by omega) h2
    · have h0 : remainingBits (advance len s) = 0 := by
        rw [remainingBits_advance hl hr hp]
        omega
      exact ⟨len, by simp only [decodeLoop, h0, if_true]⟩

/-- `decode_one` takes the shortest prefix of the stream that is a key of the slot's table (R204). -/
theorem decodeOne_found {k m : Nat} {t : Table} {sym : BitVec 9} {s : State} (ht : slotTable k s = some t)
    (hl : 8 * s.brLen.toNat < 2 ^ 32) (hp : s.brPos.toNat ≤ 8 * s.brLen.toNat) (h1 : 1 ≤ m) (hm : m ≤ t.maxlen)
    (hr : m ≤ remainingBits s) (hf : t.find m (packCode s s.brPos.toNat m) = some sym)
    (hno : ∀ j, 1 ≤ j → j < m → t.find j (packCode s s.brPos.toNat j) = none) :
    decodeOne k s = .ok sym (advance m s) := by
  have := decodeLoop_found (n := t.maxlen) (len := 0) hl hp h1 (by omega) hr hf hno
  rw [advance_zero] at this
  simp only [decodeOne, ht]
  exact this

/-- `decode_one` with no prefix of the stream that is a key (R204, R205). -/
theorem decodeOne_none {k : Nat} {t : Table} {s : State} (ht : slotTable k s = some t)
    (hl : 8 * s.brLen.toNat < 2 ^ 32) (hp : s.brPos.toNat ≤ 8 * s.brLen.toNat)
    (hno : ∀ j, 1 ≤ j → j ≤ remainingBits s → t.find j (packCode s s.brPos.toNat j) = none) :
    ∃ j, decodeOne k s = .fail .truncatedHuffmanCode (advance j s) := by
  obtain ⟨j, hj⟩ := decodeLoop_none (t := t) (n := t.maxlen) (len := 0) hl hp (Nat.zero_le _) hno
  rw [advance_zero] at hj
  simp only [decodeOne, ht]
  exact ⟨j, hj⟩

/-! ### Building tables -/

theorem le_foldl_max (l : List Nat) (m : Nat) : m ≤ l.foldl max m ∧ ∀ x ∈ l, x ≤ l.foldl max m := by
  induction l generalizing m with
  | nil => simp
  | cons a l ih =>
    have := ih (max m a)
    refine ⟨by simp only [List.foldl_cons]; omega, fun x hx => ?_⟩
    rcases List.mem_cons.1 hx with rfl | hx
    · simp only [List.foldl_cons]; omega
    · exact this.2 x hx

theorem le_maxLen {lens : List Nat} {l : Nat} (h : l ∈ lens) : l ≤ maxLen lens := (le_foldl_max lens 0).2 l h

theorem maxLen_le {lens : List Nat} {b : Nat} (h : ∀ l ∈ lens, l ≤ b) : maxLen lens ≤ b := by
  have key : ∀ (l : List Nat) (m : Nat), m ≤ b → (∀ x ∈ l, x ≤ b) → l.foldl max m ≤ b := by
    intro l
    induction l with
    | nil => intro m hm _; exact hm
    | cons a l ih =>
      intro m hm hx
      exact ih _ (Nat.max_le.2 ⟨hm, hx a (List.mem_cons_self ..)⟩) fun x h => hx x (List.mem_cons_of_mem _ h)
  exact key lens 0 (Nat.zero_le _) h

/-- The keys `assignCodes` makes: each has the nonzero length of its symbol. -/
theorem assignCodes_mem {next lens : List Nat} {sym : Nat} {e : Entry} (h : e ∈ assignCodes next sym lens) :
    ∃ i, i < lens.length ∧ lens.getD i 0 = e.len ∧ e.len ≠ 0 ∧ e.sym = BitVec.ofNat 9 (sym + i) := by
  induction lens generalizing next sym with
  | nil => simp [assignCodes] at h
  | cons l rest ih =>
    rw [assignCodes] at h
    have tail : ∀ nx, e ∈ assignCodes nx (sym + 1) rest →
        ∃ i, i < (l :: rest).length ∧ (l :: rest).getD i 0 = e.len ∧ e.len ≠ 0 ∧
          e.sym = BitVec.ofNat 9 (sym + i) := by
      intro nx hx
      obtain ⟨i, h1, h2, h3, h4⟩ := ih hx
      refine ⟨i + 1, by simpa using h1, by simpa using h2, h3, ?_⟩
      rw [h4, show sym + (i + 1) = sym + 1 + i by omega]
    split at h
    · exact tail _ h
    · rcases List.mem_cons.1 h with rfl | h
      · exact ⟨0, by simp, by simp, by assumption, by simp⟩
      · exact tail _ h

/-- A built table fits the number of symbols it was built from (R200, R201). -/
theorem buildTable_ok {lens : List Nat} {t : Table} (h : buildTable lens = some t)
    (hl : ∀ l ∈ lens, l ≤ 15) (hn : lens.length ≤ 512) : TableOk lens.length t := by
  unfold buildTable at h
  simp only at h
  split at h
  · simp at h
  · simp only [Option.some.injEq] at h
    subst h
    refine ⟨maxLen_le hl, fun e he => ?_⟩
    obtain ⟨i, h1, h2, h3, h4⟩ := assignCodes_mem he
    have hmem : e.len ∈ lens := by
      rw [← h2, List.getD_eq_getElem _ _ h1]
      exact List.getElem_mem h1
    refine ⟨by omega, le_maxLen hmem, ?_⟩
    rw [h4, BitVec.toNat_ofNat]
    omega

/-- What `build` answers. -/
theorem build_cases (k : Nat) (lens : List Nat) (s : State) :
    (∃ t, buildTable lens = some t ∧ build k lens s = .ok () (setSlot k (some t) s)) ∨
    (buildTable lens = none ∧ build k lens s = .fail .emptyAlphabet (setSlot k none s)) := by
  unfold build
  cases buildTable lens with
  | none => exact .inr ⟨rfl, rfl⟩
  | some t => exact .inl ⟨t, rfl, rfl⟩

/-- What `setSlot` can change: the slots. -/
theorem setSlot_state (k : Nat) (t : Option Table) (s : State) :
    setSlot k t s =
      { s with
        slotCL := (setSlot k t s).slotCL, slotLL := (setSlot k t s).slotLL, slotD := (setSlot k t s).slotD } := by
  unfold setSlot
  split <;> rfl

/-! ### Code lengths -/

/-- What `fillLens` can change: `LENS`. -/
theorem fillLens_state (k : Nat) (v : Nibble) (r : Nat) (s : State) :
    fillLens k v r s = { s with lens := (fillLens k v r s).lens } := by
  induction r generalizing k s with
  | zero => rfl
  | succ r ih =>
    rw [fillLens, ih]

/-- The cells `fillLens` writes, and those it keeps. -/
theorem fillLens_get (k : Nat) (v : Nibble) (r : Nat) (s : State) (a : Nat) :
    (fillLens k v r s).lens.get a = if k ≤ a ∧ a < k + r then v else s.lens.get a := by
  induction r generalizing k s with
  | zero => rw [fillLens, if_neg (by omega)]
  | succ r ih =>
    rw [fillLens, ih]
    simp only [Memory.get_set]
    by_cases h : k = a
    · subst h
      rw [if_neg (by omega), if_pos rfl, if_pos (by omega)]
    · rw [if_neg h]
      by_cases h' : k + 1 ≤ a ∧ a < k + 1 + r
      · rw [if_pos h', if_pos (by omega)]
      · rw [if_neg h', if_neg (by omega)]

theorem fillLens_wf {k : Nat} {v : Nibble} {r : Nat} {s : State} (h : s.lens.wf) :
    (fillLens k v r s).lens.wf := by
  induction r generalizing k s with
  | zero => exact h
  | succ r ih => exact ih (s := { s with lens := s.lens.set k v }) (Memory.set_wf h k v)

theorem fillLens_within {k : Nat} {v : Nibble} {r cap : Nat} {s : State} (h : s.lens.within cap)
    (hk : k + r ≤ cap) : (fillLens k v r s).lens.within cap := by
  induction r generalizing k s with
  | zero => exact h
  | succ r ih =>
    exact ih (s := { s with lens := s.lens.set k v }) (Memory.set_within h (by omega) v) (by omega)

/-- What `readClLens` can change: the cursor; and what it answers: as many lengths, each below 8. -/
theorem readClLens_cases (order cl : List Nat) (s : State) :
    (∃ cl' m, readClLens order cl s = .ok cl' (advance m s) ∧ cl'.length = cl.length ∧
      ((∀ l ∈ cl, l < 8) → ∀ l ∈ cl', l < 8)) ∨
    (∃ m, readClLens order cl s = .fail .insufficientBits (advance m s)) := by
  induction order generalizing cl s with
  | nil => exact .inl ⟨cl, 0, by simp [readClLens], rfl, fun h => h⟩
  | cons o rest ih =>
    rcases readReversed_cases 3 s with ⟨_, h⟩ | ⟨_, h⟩
    · rcases ih (cl.set o (packInteger s s.brPos.toNat 3)) (advance 3 s) with
        ⟨cl', m, h1, h2, h3⟩ | ⟨m, h1⟩
      · refine .inl ⟨cl', 3 + m, by simp [readClLens, h, h1, advance_advance], by simpa using h2,
          fun hc => h3 fun l hl => ?_⟩
        rcases List.mem_or_eq_of_mem_set hl with hl | rfl
        · exact hc l hl
        · exact packInteger_lt s _ 3
      · exact .inr ⟨3 + m, by simp [readClLens, h, h1, advance_advance]⟩
    · exact .inr ⟨0, by simp [readClLens, h]⟩

/-! ### Rows of the defilter -/

/-- What `reconRow` can change: `RBUF`. -/
theorem reconRow_state (pred : Predictor) (r n i : Nat) (s : State) :
    reconRow pred r n i s = { s with rbuf := (reconRow pred r n i s).rbuf } := by
  induction n generalizing i s with
  | zero => rfl
  | succ n ih => rw [reconRow, ih]

/-- The bytes of `RBUF` outside the row are kept. -/
theorem reconRow_get_outside (pred : Predictor) (r n i : Nat) (s : State) {a : Nat}
    (h : a < r * rowWidth s + i ∨ r * rowWidth s + i + n ≤ a) :
    (reconRow pred r n i s).rbuf.get a = s.rbuf.get a := by
  induction n generalizing i s with
  | zero => rfl
  | succ n ih =>
    rw [reconRow, ih]
    · rw [Memory.get_set_other _ _ (by omega)]
    · simp only [rowWidth] at *
      omega

theorem reconRow_wf {pred : Predictor} {r n i : Nat} {s : State} (h : s.rbuf.wf) :
    (reconRow pred r n i s).rbuf.wf := by
  induction n generalizing i s with
  | zero => exact h
  | succ n ih => exact ih (Memory.set_wf h _ _)

theorem reconRow_within {pred : Predictor} {r n i cap : Nat} {s : State} (h : s.rbuf.within cap)
    (hc : r * rowWidth s + i + n ≤ cap) : (reconRow pred r n i s).rbuf.within cap := by
  induction n generalizing i s with
  | zero => exact h
  | succ n ih =>
    refine ih (Memory.set_within h (by omega) _) ?_
    simp only [rowWidth] at *
    omega

end Sys2Proof.Machine
end

