-- ==== Sys2Proof/Laws/PerInstr.lean ====
section
/-! SUPPORT. Statements made for each instruction, one lemma per constructor. -/

namespace Sys2Proof.Laws.Fits

/-- The table word of an instruction fits its format's width (R122). -/
def Statement (i : Instr) : Prop := encode i < 2 ^ i.format.bits

theorem nop : Statement .nop := Nat.le_of_ble_eq_true rfl
theorem reset : Statement .reset := Nat.le_of_ble_eq_true rfl
theorem clr : Statement .clr := Nat.le_of_ble_eq_true rfl
theorem brInit : Statement .brInit := Nat.le_of_ble_eq_true rfl
theorem brRead : Statement .brRead := Nat.le_of_ble_eq_true rfl
theorem brReadRev : Statement .brReadRev := Nat.le_of_ble_eq_true rfl
theorem brRemaining : Statement .brRemaining := Nat.le_of_ble_eq_true rfl
theorem htBuild : Statement .htBuild := Nat.le_of_ble_eq_true rfl
theorem htDecode : Statement .htDecode := Nat.le_of_ble_eq_true rfl
theorem inflate : Statement .inflate := Nat.le_of_ble_eq_true rfl
theorem obSetlen : Statement .obSetlen := Nat.le_of_ble_eq_true rfl
theorem crcCompute : Statement .crcCompute := Nat.le_of_ble_eq_true rfl
theorem crcCheck : Statement .crcCheck := Nat.le_of_ble_eq_true rfl
theorem defilter : Statement .defilter := Nat.le_of_ble_eq_true rfl
theorem cmdIllegal (op : BitVec 8) : Statement (.cmdIllegal op) := op.isLt
theorem blkStored (bfinal : Bool) : Statement (.blkStored bfinal) := by cases bfinal <;> exact Nat.le_of_ble_eq_true rfl
theorem blkFixed (bfinal : Bool) : Statement (.blkFixed bfinal) := by cases bfinal <;> exact Nat.le_of_ble_eq_true rfl
theorem blkDynamic (bfinal : Bool) : Statement (.blkDynamic bfinal) := by cases bfinal <;> exact Nat.le_of_ble_eq_true rfl
theorem blkReserved (bfinal : Bool) : Statement (.blkReserved bfinal) := by cases bfinal <;> exact Nat.le_of_ble_eq_true rfl
theorem lit (v : BitVec 8) : Statement (.lit v) := Nat.lt_of_lt_of_le v.isLt (Nat.le_of_ble_eq_true rfl)
theorem eob : Statement .eob := Nat.le_of_ble_eq_true rfl
theorem len257 : Statement .len257 := Nat.le_of_ble_eq_true rfl
theorem len258 : Statement .len258 := Nat.le_of_ble_eq_true rfl
theorem len259 : Statement .len259 := Nat.le_of_ble_eq_true rfl
theorem len260 : Statement .len260 := Nat.le_of_ble_eq_true rfl
theorem len261 : Statement .len261 := Nat.le_of_ble_eq_true rfl
theorem len262 : Statement .len262 := Nat.le_of_ble_eq_true rfl
theorem len263 : Statement .len263 := Nat.le_of_ble_eq_true rfl
theorem len264 : Statement .len264 := Nat.le_of_ble_eq_true rfl
theorem len265 : Statement .len265 := Nat.le_of_ble_eq_true rfl
theorem len266 : Statement .len266 := Nat.le_of_ble_eq_true rfl
theorem len267 : Statement .len267 := Nat.le_of_ble_eq_true rfl
theorem len268 : Statement .len268 := Nat.le_of_ble_eq_true rfl
theorem len269 : Statement .len269 := Nat.le_of_ble_eq_true rfl
theorem len270 : Statement .len270 := Nat.le_of_ble_eq_true rfl
theorem len271 : Statement .len271 := Nat.le_of_ble_eq_true rfl
theorem len272 : Statement .len272 := Nat.le_of_ble_eq_true rfl
theorem len273 : Statement .len273 := Nat.le_of_ble_eq_true rfl
theorem len274 : Statement .len274 := Nat.le_of_ble_eq_true rfl
theorem len275 : Statement .len275 := Nat.le_of_ble_eq_true rfl
theorem len276 : Statement .len276 := Nat.le_of_ble_eq_true rfl
theorem len277 : Statement .len277 := Nat.le_of_ble_eq_true rfl
theorem len278 : Statement .len278 := Nat.le_of_ble_eq_true rfl
theorem len279 : Statement .len279 := Nat.le_of_ble_eq_true rfl
theorem len280 : Statement .len280 := Nat.le_of_ble_eq_true rfl
theorem len281 : Statement .len281 := Nat.le_of_ble_eq_true rfl
theorem len282 : Statement .len282 := Nat.le_of_ble_eq_true rfl
theorem len283 : Statement .len283 := Nat.le_of_ble_eq_true rfl
theorem len284 : Statement .len284 := Nat.le_of_ble_eq_true rfl
theorem len285 : Statement .len285 := Nat.le_of_ble_eq_true rfl
theorem llInvalid286 : Statement .llInvalid286 := Nat.le_of_ble_eq_true rfl
theorem llInvalid287 : Statement .llInvalid287 := Nat.le_of_ble_eq_true rfl
theorem llUnreachable (sym : BitVec 9) : Statement (.llUnreachable sym) := sym.isLt
theorem dist0 : Statement .dist0 := Nat.le_of_ble_eq_true rfl
theorem dist1 : Statement .dist1 := Nat.le_of_ble_eq_true rfl
theorem dist2 : Statement .dist2 := Nat.le_of_ble_eq_true rfl
theorem dist3 : Statement .dist3 := Nat.le_of_ble_eq_true rfl
theorem dist4 : Statement .dist4 := Nat.le_of_ble_eq_true rfl
theorem dist5 : Statement .dist5 := Nat.le_of_ble_eq_true rfl
theorem dist6 : Statement .dist6 := Nat.le_of_ble_eq_true rfl
theorem dist7 : Statement .dist7 := Nat.le_of_ble_eq_true rfl
theorem dist8 : Statement .dist8 := Nat.le_of_ble_eq_true rfl
theorem dist9 : Statement .dist9 := Nat.le_of_ble_eq_true rfl
theorem dist10 : Statement .dist10 := Nat.le_of_ble_eq_true rfl
theorem dist11 : Statement .dist11 := Nat.le_of_ble_eq_true rfl
theorem dist12 : Statement .dist12 := Nat.le_of_ble_eq_true rfl
theorem dist13 : Statement .dist13 := Nat.le_of_ble_eq_true rfl
theorem dist14 : Statement .dist14 := Nat.le_of_ble_eq_true rfl
theorem dist15 : Statement .dist15 := Nat.le_of_ble_eq_true rfl
theorem dist16 : Statement .dist16 := Nat.le_of_ble_eq_true rfl
theorem dist17 : Statement .dist17 := Nat.le_of_ble_eq_true rfl
theorem dist18 : Statement .dist18 := Nat.le_of_ble_eq_true rfl
theorem dist19 : Statement .dist19 := Nat.le_of_ble_eq_true rfl
theorem dist20 : Statement .dist20 := Nat.le_of_ble_eq_true rfl
theorem dist21 : Statement .dist21 := Nat.le_of_ble_eq_true rfl
theorem dist22 : Statement .dist22 := Nat.le_of_ble_eq_true rfl
theorem dist23 : Statement .dist23 := Nat.le_of_ble_eq_true rfl
theorem dist24 : Statement .dist24 := Nat.le_of_ble_eq_true rfl
theorem dist25 : Statement .dist25 := Nat.le_of_ble_eq_true rfl
theorem dist26 : Statement .dist26 := Nat.le_of_ble_eq_true rfl
theorem dist27 : Statement .dist27 := Nat.le_of_ble_eq_true rfl
theorem dist28 : Statement .dist28 := Nat.le_of_ble_eq_true rfl
theorem dist29 : Statement .dist29 := Nat.le_of_ble_eq_true rfl
theorem dInvalid (b0 : Bool) : Statement (.dInvalid b0) := by cases b0 <;> exact Nat.le_of_ble_eq_true rfl
theorem clLen (v : BitVec 4) : Statement (.clLen v) := Nat.lt_of_lt_of_le v.isLt (Nat.le_of_ble_eq_true rfl)
theorem clRep : Statement .clRep := Nat.le_of_ble_eq_true rfl
theorem clZrep3 : Statement .clZrep3 := Nat.le_of_ble_eq_true rfl
theorem clZrep11 : Statement .clZrep11 := Nat.le_of_ble_eq_true rfl
theorem clUnreachable (sym : BitVec 5) : Statement (.clUnreachable sym) := sym.isLt
theorem ftNone : Statement .ftNone := Nat.le_of_ble_eq_true rfl
theorem ftSub : Statement .ftSub := Nat.le_of_ble_eq_true rfl
theorem ftUp : Statement .ftUp := Nat.le_of_ble_eq_true rfl
theorem ftAverage : Statement .ftAverage := Nat.le_of_ble_eq_true rfl
theorem ftPaeth : Statement .ftPaeth := Nat.le_of_ble_eq_true rfl
theorem ftIllegal (tag : BitVec 8) : Statement (.ftIllegal tag) := tag.isLt

end Sys2Proof.Laws.Fits
end

