-- ==== Sys2Proof/Laws/Stream.lean ====
section
/-! SUPPORT. What fetching and running the stream-level instructions can do, said once: the format of what is
fetched, the states the parts of `INFLATE` can end in, and that the two dispatch functions agree. -/

namespace Sys2Proof.Machine

/-! ### Formats of what the decoder gives -/

theorem decodeCommand_format (op : BitVec 8) : (decodeCommand op).format = .cmd := by
  unfold decodeCommand
  split <;> rfl

theorem decodeBlockHeader_format (h : BitVec 3) : (decodeBlockHeader h).format = .blkhdr := by
  unfold decodeBlockHeader
  split <;> rfl

theorem decodeLitLen_format (sym : BitVec 9) : (decodeLitLen sym).format = .llsym := by
  unfold decodeLitLen
  split
  · rfl
  · unfold decodeLengthSymbol
    split <;> rfl

theorem decodeDistance_format (sym : BitVec 5) : (decodeDistance sym).format = .dsym := by
  unfold decodeDistance
  split <;> rfl

theorem decodeCodeLength_format (sym : BitVec 5) : (decodeCodeLength sym).format = .clsym := by
  unfold decodeCodeLength
  split
  · rfl
  · split <;> rfl

theorem decodeFilterTag_format (tag : BitVec 8) : (decodeFilterTag tag).format = .ftag := by
  unfold decodeFilterTag
  split <;> rfl

/-! ### Fetching -/

theorem fetch_none {s : State} : fetch s = none ↔ s.work.level = .cmd := by
  unfold fetch
  cases s.work.level <;> simp

theorem fetchHeader_cases (s : State) :
    (∃ h, fetchHeader s = .ok (decodeBlockHeader h) (advance 3 s)) ∨
    (∃ m, fetchHeader s = .fail .insufficientBits (advance m s)) := by
  unfold fetchHeader
  rcases readCode_cases 1 s with ⟨_, h⟩ | ⟨_, h⟩
  · rcases readReversed_cases 2 (advance 1 s) with ⟨_, h'⟩ | ⟨_, h'⟩
    · exact .inl ⟨_, by simp only [h, h', Res.andThen_ok, advance_advance]; rfl⟩
    · exact .inr ⟨1, by simp only [h, h', Res.andThen_ok, Res.andThen_fail]⟩
  · exact .inr ⟨0, by simp only [h, Res.andThen_fail, advance_zero]⟩

/-- A fetched instruction has the current format, and fetching it moved the cursor only. -/
theorem fetch_ok {s t : State} {i : Instr} (h : fetch s = some (.ok i t)) :
    i.format = s.work.level ∧ s.work.level ≠ .cmd ∧ ∃ m, t = advance m s := by
  unfold fetch at h
  cases hl : s.work.level with
  | cmd => simp [hl] at h
  | blkhdr =>
    simp only [hl, Option.some.injEq] at h
    rcases fetchHeader_cases s with ⟨b, hb⟩ | ⟨m, hb⟩ <;> rw [hb] at h
    · simp only [Res.ok.injEq] at h
      exact ⟨h.1 ▸ decodeBlockHeader_format b, nofun, 3, h.2.symm⟩
    · simp at h
  | llsym =>
    simp only [hl, Option.some.injEq, fetchLitLen] at h
    rcases decodeOne_cases 1 s with ⟨_, m, sym, _, _, _, _, hb⟩ | ⟨m, hb⟩ <;> rw [hb] at h
    · simp only [Res.andThen_ok, Res.ok.injEq] at h
      exact ⟨h.1 ▸ decodeLitLen_format sym, nofun, m, h.2.symm⟩
    · simp at h
  | dsym =>
    simp only [hl, Option.some.injEq, fetchDistance] at h
    split at h
    · rcases readCode_cases 5 s with ⟨_, hb⟩ | ⟨_, hb⟩ <;> rw [hb] at h
      · simp only [Res.andThen_ok, Res.ok.injEq] at h
        exact ⟨h.1 ▸ decodeDistance_format _, nofun, 5, h.2.symm⟩
      · simp at h
    · rcases decodeOne_cases 2 s with ⟨_, m, sym, _, _, _, _, hb⟩ | ⟨m, hb⟩ <;> rw [hb] at h
      · simp only [Res.andThen_ok, Res.ok.injEq] at h
        exact ⟨h.1 ▸ decodeDistance_format _, nofun, m, h.2.symm⟩
      · simp at h
  | clsym =>
    simp only [hl, Option.some.injEq, fetchCodeLength] at h
    rcases decodeOne_cases 0 s with ⟨_, m, sym, _, _, _, _, hb⟩ | ⟨m, hb⟩ <;> rw [hb] at h
    · simp only [Res.andThen_ok, Res.ok.injEq] at h
      exact ⟨h.1 ▸ decodeCodeLength_format _, nofun, m, h.2.symm⟩
    · simp at h
  | ftag =>
    simp only [hl, Option.some.injEq, fetchTag, Res.ok.injEq] at h
    exact ⟨h.1 ▸ decodeFilterTag_format _, nofun, 0, by rw [advance_zero]; exact h.2.symm⟩

/-- A fetch fails only for want of bits, in a field or in a Huffman code (R413), and moved the cursor only. -/
theorem fetch_fail {s t : State} {k : Failure} (h : fetch s = some (.fail k t)) :
    (k = .insufficientBits ∨ k = .truncatedHuffmanCode) ∧ ∃ m, t = advance m s := by
  unfold fetch at h
  cases hl : s.work.level with
  | cmd => simp [hl] at h
  | blkhdr =>
    simp only [hl, Option.some.injEq] at h
    rcases fetchHeader_cases s with ⟨b, hb⟩ | ⟨m, hb⟩ <;> rw [hb] at h
    · simp at h
    · simp only [Res.fail.injEq] at h
      exact ⟨.inl h.1.symm, m, h.2.symm⟩
  | llsym =>
    simp only [hl, Option.some.injEq, fetchLitLen] at h
    rcases decodeOne_cases 1 s with ⟨_, m, sym, _, _, _, _, hb⟩ | ⟨m, hb⟩ <;> rw [hb] at h
    · simp at h
    · simp only [Res.andThen_fail, Res.fail.injEq] at h
      exact ⟨.inr h.1.symm, m, h.2.symm⟩
  | dsym =>
    simp only [hl, Option.some.injEq, fetchDistance] at h
    split at h
    · rcases readCode_cases 5 s with ⟨_, hb⟩ | ⟨_, hb⟩ <;> rw [hb] at h
      · simp at h
      · simp only [Res.andThen_fail, Res.fail.injEq] at h
        exact ⟨.inl h.1.symm, 0, by rw [advance_zero]; exact h.2.symm⟩
    · rcases decodeOne_cases 2 s with ⟨_, m, sym, _, _, _, _, hb⟩ | ⟨m, hb⟩ <;> rw [hb] at h
      · simp at h
      · simp only [Res.andThen_fail, Res.fail.injEq] at h
        exact ⟨.inr h.1.symm, m, h.2.symm⟩
  | clsym =>
    simp only [hl, Option.some.injEq, fetchCodeLength] at h
    rcases decodeOne_cases 0 s with ⟨_, m, sym, _, _, _, _, hb⟩ | ⟨m, hb⟩ <;> rw [hb] at h
    · simp at h
    · simp only [Res.andThen_fail, Res.fail.injEq] at h
      exact ⟨.inr h.1.symm, m, h.2.symm⟩
  | ftag => simp [hl, fetchTag] at h

/-! ### Running -/

/-- On the instructions of a stream the two dispatch functions agree. -/
theorem exec_eq_streamExec {i : Instr} (h : i.format ≠ .cmd) (s : State) : exec i s = streamExec i s := by
  cases i <;> first | exact absurd rfl h | rfl

/-- A stream-level instruction always leaves a next state. -/
theorem streamExec_next (i : Instr) (s : State) : ∃ t, streamExec i s = .next t := by
  cases i <;> exact ⟨_, rfl⟩

theorem streamTurn_next (r : Res Instr) : ∃ t, streamTurn r = .next t := by
  cases r with
  | ok i s => exact streamExec_next i s
  | fail k s => exact ⟨_, rfl⟩

theorem runStream_next (n : Nat) (s : State) : ∃ t, runStream n s = .next t := by
  induction n generalizing s with
  | zero => exact ⟨s, rfl⟩
  | succ n ih =>
    rw [runStream]
    cases fetch s with
    | none => exact ⟨s, rfl⟩
    | some r =>
      obtain ⟨t, ht⟩ := streamTurn_next r
      simp only [ht]
      exact ih t

/-- Running on from a state in which the command is over does nothing. -/
theorem runStream_over (n : Nat) {s : State} (h : s.work.level = .cmd) : runStream n s = .next s := by
  cases n with
  | zero => rfl
  | succ n => simp only [runStream, fetch_none.2 h]

/-- One instruction of a run, taken by the dispatch function of the machine. -/
theorem runStream_succ (n : Nat) {s t u : State} {i : Instr} (h : fetch s = some (.ok i t))
    (he : exec i t = .next u) : runStream (n + 1) s = runStream n u := by
  have hf := fetch_ok h
  rw [exec_eq_streamExec (by rw [hf.1]; exact hf.2.1)] at he
  simp only [runStream, h, streamTurn, he]

theorem runStream_fetch_fail (n : Nat) {s t : State} {k : Failure} (h : fetch s = some (.fail k t)) :
    runStream (n + 1) s = runStream n (raiseInflate k t) := by
  simp only [runStream, h, streamTurn]

/-! ### The parts of `INFLATE` -/

/-- The zlib header: both bytes, or why not (R221, R222). -/
theorem zlibHeader_cases (s : State) :
    (∃ z, zlibHeader s = .ok () { advance 16 s with zhdr := z }) ∨
    (∃ z, zlibHeader s = .fail .unsupportedFeature { advance 16 s with zhdr := z }) ∨
    (∃ m, m ≤ 8 ∧ zlibHeader s = .fail .insufficientBits (advance m s)) := by
  unfold zlibHeader
  rcases readReversed_cases 8 s with ⟨_, h⟩ | ⟨_, h⟩
  · rcases readReversed_cases 8 (advance 8 s) with ⟨_, h'⟩ | ⟨_, h'⟩
    · simp only [h, h', Res.andThen_ok, advance_advance]
      split
      · exact .inr (.inl ⟨_, rfl⟩)
      · exact .inl ⟨_, rfl⟩
    · exact .inr (.inr ⟨8, Nat.le_refl _, by simp only [h, h', Res.andThen_ok, Res.andThen_fail]⟩)
  · exact .inr (.inr ⟨0, Nat.zero_le _, by simp only [h, Res.andThen_fail, advance_zero]⟩)

/-- The end of a block: the command is over after the final one, else the next header is read (R225, R228). -/
theorem endBlock_cases (s : State) :
    (s.work.bfinal = true ∧ endBlock s = completeInflate s) ∨
    (s.work.bfinal = false ∧ endBlock s = { s with work := { Work.idle with level := .blkhdr } }) := by
  unfold endBlock
  cases s.work.bfinal <;> simp

/-- The complement check: passed, tolerated with a warning, or a failure in strict mode (R232). -/
theorem checkComplement_cases (len nlen : Nat) (s : State) :
    (len = nlen ^^^ 0xFFFF ∧ checkComplement len nlen s = .ok () s) ∨
    (len ≠ nlen ^^^ 0xFFFF ∧ s.params.strictNlen = true ∧
      checkComplement len nlen s = .fail .storedLenMismatch s) ∨
    (len ≠ nlen ^^^ 0xFFFF ∧ s.params.strictNlen = false ∧
      checkComplement len nlen s = .ok () (setWarnNlen s)) := by
  unfold checkComplement
  by_cases h : len = nlen ^^^ 0xFFFF
  · simp [h]
  · cases hp : s.params.strictNlen <;> simp [h]

/-- The header of a dynamic block: slot 0 is built and the code-length symbols follow, or why not (R240, R244). -/
theorem dynamicHeader_cases (s : State) :
    (∃ m cl t hlit hdist, buildTable cl = some t ∧ cl.length = 19 ∧ (∀ l ∈ cl, l < 8) ∧
      hlit < 32 ∧ hdist < 32 ∧
      dynamicHeader s = .ok () { advance m s with
        slotCL := some t
        work := { Work.idle with
          level := .clsym, bfinal := s.work.bfinal, hlit := 257 + hlit, hdist := 1 + hdist } }) ∨
    (∃ m, dynamicHeader s = .fail .emptyAlphabet { advance m s with slotCL := none }) ∨
    (∃ m, dynamicHeader s = .fail .insufficientBits (advance m s)) := by
  unfold dynamicHeader
  rcases readReversed_cases 5 s with ⟨_, h1⟩ | ⟨_, h1⟩
  swap
  · exact .inr (.inr ⟨0, by simp only [h1, Res.andThen_fail, advance_zero]⟩)
  rcases readReversed_cases 5 (advance 5 s) with ⟨_, h2⟩ | ⟨_, h2⟩
  swap
  · exact .inr (.inr ⟨5, by simp only [h1, h2, Res.andThen_ok, Res.andThen_fail]⟩)
  rcases readReversed_cases 4 (advance 5 (advance 5 s)) with ⟨_, h3⟩ | ⟨_, h3⟩
  swap
  · exact .inr (.inr ⟨10, by
      simp only [h1, h2, h3, Res.andThen_ok, Res.andThen_fail]
      rw [advance_advance]⟩)
  simp only [h1, h2, h3, Res.andThen_ok]
  generalize hhl : packInteger s s.brPos.toNat 5 = hl
  generalize hhd : packInteger (advance 5 s) (advance 5 s).brPos.toNat 5 = hd
  generalize clOrder.take _ = order
  have hl32 : hl < 32 := hhl ▸ packInteger_lt s _ 5
  have hd32 : hd < 32 := hhd ▸ packInteger_lt _ _ 5
  rcases readClLens_cases order (List.replicate 19 0) (advance 4 (advance 5 (advance 5 s))) with
    ⟨cl, m, h4, h5, h6⟩ | ⟨m, h4⟩
  · rw [h4, Res.andThen_ok]
    rcases build_cases 0 cl (advance m (advance 4 (advance 5 (advance 5 s)))) with ⟨t, hb, hb'⟩ | ⟨_, hb'⟩
    · refine .inl ⟨14 + m, cl, t, hl, hd, hb, by simpa using h5, h6 (by simp), hl32, hd32, ?_⟩
      rw [hb', Res.andThen_ok]
      simp only [advance_advance]
      rfl
    · refine .inr (.inl ⟨14 + m, ?_⟩)
      rw [hb', Res.andThen_fail]
      simp only [advance_advance]
      rfl
  · exact .inr (.inr ⟨14 + m, by rw [h4, Res.andThen_fail]; simp only [advance_advance]⟩)

/-- After the code-length loop: more lengths to come, or both tables, or an alphabet with no code (R249, R250). -/
theorem afterLengths_cases (s : State) :
    (s.work.produced < s.work.hlit + s.work.hdist ∧ afterLengths s = .ok () s) ∨
    (s.work.hlit + s.work.hdist ≤ s.work.produced ∧ ∃ tl td,
      buildTable (lensFrom 0 s.work.hlit s) = some tl ∧
      buildTable (lensFrom s.work.hlit s.work.hdist s) = some td ∧
      afterLengths s = .ok () (enterSymbols false { s with slotLL := some tl, slotD := some td })) ∨
    (s.work.hlit + s.work.hdist ≤ s.work.produced ∧ ∃ tl td,
      afterLengths s = .fail .emptyAlphabet { s with slotLL := tl, slotD := td }) := by
  by_cases hp : s.work.produced < s.work.hlit + s.work.hdist
  · exact .inl ⟨hp, by simp [afterLengths, hp]⟩
  · simp only [afterLengths, hp, if_false]
    rcases build_cases 1 (lensFrom 0 s.work.hlit s) s with ⟨tl, hb, hb'⟩ | ⟨_, hb'⟩
    · rw [hb', Res.andThen_ok]
      rcases build_cases 2 (lensFrom s.work.hlit s.work.hdist s) (setSlot 1 (some tl) s) with
        ⟨td, hc, hc'⟩ | ⟨_, hc'⟩
      · exact .inr (.inl ⟨by omega, tl, td, hb, hc, by
          rw [show lensFrom (setSlot 1 (some tl) s).work.hlit (setSlot 1 (some tl) s).work.hdist
            (setSlot 1 (some tl) s) = lensFrom s.work.hlit s.work.hdist s from rfl, hc']; rfl⟩)
      · exact .inr (.inr ⟨by omega, some tl, none, by
          rw [show lensFrom (setSlot 1 (some tl) s).work.hlit (setSlot 1 (some tl) s).work.hdist
            (setSlot 1 (some tl) s) = lensFrom s.work.hlit s.work.hdist s from rfl, hc']; rfl⟩)
    · exact .inr (.inr ⟨by omega, none, s.slotD, by rw [hb', Res.andThen_fail]; rfl⟩)

end Sys2Proof.Machine
end

