-- ==== Sys2Proof/Tests/Slice0.lean ====
section
/-! SUPPORT. Tests against the spec's own words, examples and vectors (95_test_vectors.md), and a witness for the
hypotheses of every statement of Certificates/Slice0/Obligations.lean. -/

namespace Sys2Proof.Tests

set_option Elab.async false

open Sys2Proof.Machine

/-! ### Ill-formed instructions are refused by the check -/

theorem test_wf_refuses_defined_opcode : (Instr.cmdIllegal 0x30).wf = false := by decide
theorem test_wf_refuses_reachable_symbol : (Instr.llUnreachable 287).wf = false := by decide
theorem test_wf_refuses_reachable_length_symbol : (Instr.clUnreachable 18).wf = false := by decide
theorem test_wf_refuses_legal_tag : (Instr.ftIllegal 4).wf = false := by decide

/-! ### Words written out from the `encoding` column of the table, every row of it (R122) -/

/-- A word of a format decodes to the instruction, and the instruction encodes to the word. -/
def decodesTo (f : Format) (p : Nat × Instr) : Bool :=
  (match decode f p.1 with
    | .ok i => i == p.2
    | .error _ => false) && encode p.2 == p.1

theorem test_decode_cmd_0 : [(0b00000000, .nop), (0b00000001, .reset), (0b00000010, .clr), (0b00010000,
    .brInit), (0b00010001, .brRead), (0b00010010, .brReadRev), (0b00010011, .brRemaining), (0b00100000,
    .htBuild), (0b00100001, .htDecode), (0b00110000, .inflate)].all (decodesTo .cmd) = true := by decide

theorem test_decode_cmd_1 : [(0b00110001, .obSetlen), (0b01000000, .crcCompute), (0b01000001, .crcCheck),
    (0b01010000, .defilter), (0b11111111, .cmdIllegal 0b11111111)].all (decodesTo .cmd) = true := by decide

theorem test_decode_blkhdr_0 : [(0b001, .blkStored true), (0b010, .blkFixed false), (0b101, .blkDynamic true),
    (0b110, .blkReserved false)].all (decodesTo .blkhdr) = true := by decide

theorem test_decode_llsym_0 : [(0b010100101, .lit 0b10100101), (0b100000000, .eob), (0b100000001, .len257),
    (0b100000010, .len258), (0b100000011, .len259), (0b100000100, .len260), (0b100000101, .len261),
    (0b100000110, .len262), (0b100000111, .len263), (0b100001000,
    .len264)].all (decodesTo .llsym) = true := by decide

theorem test_decode_llsym_1 : [(0b100001001, .len265), (0b100001010, .len266), (0b100001011, .len267),
    (0b100001100, .len268), (0b100001101, .len269), (0b100001110, .len270), (0b100001111, .len271),
    (0b100010000, .len272), (0b100010001, .len273), (0b100010010,
    .len274)].all (decodesTo .llsym) = true := by decide

theorem test_decode_llsym_2 : [(0b100010011, .len275), (0b100010100, .len276), (0b100010101, .len277),
    (0b100010110, .len278), (0b100010111, .len279), (0b100011000, .len280), (0b100011001, .len281),
    (0b100011010, .len282), (0b100011011, .len283), (0b100011100,
    .len284)].all (decodesTo .llsym) = true := by decide

theorem test_decode_llsym_3 : [(0b100011101, .len285), (0b100011110, .llInvalid286), (0b100011111,
    .llInvalid287), (0b100100000, .llUnreachable 0b100100000)].all (decodesTo .llsym) = true := by decide

theorem test_decode_dsym_0 : [(0b00000, .dist0), (0b00001, .dist1), (0b00010, .dist2), (0b00011, .dist3),
    (0b00100, .dist4), (0b00101, .dist5), (0b00110, .dist6), (0b00111, .dist7), (0b01000, .dist8), (0b01001,
    .dist9)].all (decodesTo .dsym) = true := by decide

theorem test_decode_dsym_1 : [(0b01010, .dist10), (0b01011, .dist11), (0b01100, .dist12), (0b01101, .dist13),
    (0b01110, .dist14), (0b01111, .dist15), (0b10000, .dist16), (0b10001, .dist17), (0b10010, .dist18),
    (0b10011, .dist19)].all (decodesTo .dsym) = true := by decide

theorem test_decode_dsym_2 : [(0b10100, .dist20), (0b10101, .dist21), (0b10110, .dist22), (0b10111, .dist23),
    (0b11000, .dist24), (0b11001, .dist25), (0b11010, .dist26), (0b11011, .dist27), (0b11100, .dist28),
    (0b11101, .dist29)].all (decodesTo .dsym) = true := by decide

theorem test_decode_dsym_3 : [(0b11111, .dInvalid true)].all (decodesTo .dsym) = true := by decide

theorem test_decode_clsym_0 : [(0b01010, .clLen 0b1010), (0b10000, .clRep), (0b10001, .clZrep3), (0b10010,
    .clZrep11), (0b10011, .clUnreachable 0b10011)].all (decodesTo .clsym) = true := by decide

theorem test_decode_ftag_0 : [(0b00000000, .ftNone), (0b00000001, .ftSub), (0b00000010, .ftUp), (0b00000011,
    .ftAverage), (0b00000100, .ftPaeth), (0b00000101,
    .ftIllegal 0b00000101)].all (decodesTo .ftag) = true := by decide

theorem test_word_too_wide : decode .blkhdr 8 = .error (.tooWide .blkhdr 8) := rfl

/-- Block header bits in reading order (R104): `1 1 0` is a final fixed block. -/
theorem test_header_bits : blockHeaderBits (.blkFixed true) = [true, true, false] := by decide

/-- The fixed code of symbol 97 is `10010001` and that of 256 is `0000000` (V4.7). -/
theorem test_fixed_code : fixedCode 97 = [true, false, false, true, false, false, false, true] ∧
    fixedCode 256 = List.replicate 7 false := by decide

/-! ### Small states -/

/-- Small capacities. -/
def small : Params := ⟨64, 64, 64, false⟩

/-- A block at rest with small capacities. -/
def base : State := { State.reset with params := small }

/-- Bytes from numbers. -/
def bytes (l : List Nat) : List Byte := l.map (BitVec.ofNat 8)

/-- `base` with `IBUF` loaded and a reader over it. -/
def reading (l : List Nat) (order : BitVec 1) : State :=
  { base with ibuf := base.ibuf.load 0 (bytes l), brLen := BitVec.ofNat 32 l.length, brOrder := order }

/-- The bit reader vectors' buffer (V2.1). -/
def v2 (order : BitVec 1) : State := reading [0xB4, 0x1D, 0xA7, 0x3C, 0xF0] order

/-- `IBUF` loaded and an `INFLATE` of all of it asked for. -/
def zlib (l : List Nat) : State := { reading l 0 with brLen := 0, arg0 := BitVec.ofNat 32 l.length }

/-- `OBUF` loaded and a `DEFILTER` of it asked for. -/
def rows (l : List Nat) (rb n ch depth : Nat) : State :=
  { base with
    obuf := base.obuf.load 0 (bytes l), olen := BitVec.ofNat 32 l.length, arg0 := BitVec.ofNat 32 rb
    arg1 := BitVec.ofNat 32 n, arg2 := BitVec.ofNat 32 (ch + 256 * depth) }

/-- A block whose last command failed. -/
def faulted : State := { base with status := .fault, err := 16 }

/-- In the middle of an `INFLATE` whose stream is the given bytes, at the given point of it. -/
def within (w : Work) (l : List Nat) : State := { reading l 1 with status := .busy, work := w }

/-- The next state of an outcome (the reset state when there is none). -/
def after (o : Out) : State :=
  match o with
  | .next t => t
  | _ => State.reset

/-- The lowest `n` bytes of a memory as numbers. -/
def lowest (m : Memory 8) (n : Nat) : List Nat := (m.read 0 n).map BitVec.toNat

/-! ### Commands -/

theorem test_nop_done : (after (exec .nop base)).status = .done := rfl
theorem test_nop_ignored : (after (exec .nop faulted)).err = 16 := rfl
theorem test_reset_registers : (after (exec .reset { faulted with olen := 2, warn := 1 })).olen = 0 := rfl
theorem test_clr_keeps_olen :
    let t := after (exec .clr { faulted with olen := 2, warn := 1 })
    t.status = .idle ∧ t.err = 0 ∧ t.warn = 0 ∧ t.olen = 2 := by decide

/-- V2.5. -/
theorem test_brInit_too_long : (after (exec .brInit { base with arg0 := 65 })).err = 16 := by decide
theorem test_brInit_order : (after (exec .brInit { base with arg0 := 5, arg1 := 3, brPos := 9 })).brOrder = 1 := by
  decide

/-- V2.1 step 1 and V2.2: three bits in each order. -/
theorem test_brRead :
    (after (exec .brRead { v2 1 with arg0 := 3 })).res0 = 1 ∧
    (after (exec .brRead { v2 0 with arg0 := 3 })).res0 = 5 := by decide

/-- V2.1 step 6. -/
theorem test_brRead_short :
    let t := after (exec .brRead { v2 1 with arg0 := 17, brPos := 24 })
    t.err = 11 ∧ t.brPos = 24 := by decide

/-- V2.1 step 2 and V2.3. -/
theorem test_brReadRev :
    (after (exec .brReadRev { v2 1 with arg0 := 5, brPos := 3 })).res0 = 22 ∧
    (after (exec .brReadRev { reading [0x12, 0x34, 0x56, 0x78] 1 with arg0 := 32 })).res0 = 0x78563412 := by
  decide

/-- V2.1 step 5. -/
theorem test_brRemaining : (after (exec .brRemaining { v2 1 with brPos := 24 })).res0 = 16 := by decide

/-- The lengths of V4.1 in `LENS`, a stream of its symbols (V4.8). -/
def v4 : State :=
  { reading [0xDA, 0x01] 1 with lens := base.lens.load 0 [2, 1, 3, 3], arg1 := 4 }

/-- V4.8: symbols 1, 0, 2. -/
theorem test_htDecode :
    let t := after (exec .htDecode (after (exec .htBuild v4)))
    let u := after (exec .htDecode (after (exec .htDecode t)))
    t.res0 = 1 ∧ t.brPos = 1 ∧ u.res0 = 2 ∧ u.brPos = 6 := by decide

/-- V4.1, R391's example. -/
theorem test_htBuild :
    let t := after (exec .htBuild v4)
    t.htValid = 0b001 ∧ (t.slotCL.bind fun tab => tab.find 3 0b110) = some 2 := by decide

/-- V4.5: over-subscribed lengths give an unreachable key; V4.9: no length at all. -/
theorem test_build_corners :
    ((buildTable [1, 1, 1]).bind fun tab => tab.find 1 2) = some 2 ∧ buildTable [0, 0, 0] = none := by decide

/-- V4.7: the ends of the fixed code's four ranges. -/
theorem test_fixed_table :
    ((buildTable fixedLens).map fun tab => [tab.find 8 0b10111111, tab.find 9 0b110010000, tab.find 7 0b0010111,
      tab.find 8 0b11000111]) = some [some 143, some 144, some 279, some 287] := by decide +kernel

/-- F1: a fixed block with an overlapping copy. -/
theorem test_inflate_fixed :
    let t := after (exec .inflate (zlib [0x78, 0x01, 0x4B, 0x04, 0x01, 0x00]))
    t.status = .done ∧ lowest t.obuf 5 = [97, 97, 97, 97, 97] ∧ t.olen = 5 ∧ t.brPos = 46 ∧ t.zhdr = 0x0178 := by
  decide +kernel

/-- D1: a dynamic block. -/
theorem test_inflate_dynamic :
    let t := after (exec .inflate (zlib [0x78, 0x01, 0x0D, 0x83, 0x35, 0x01, 0x00, 0x00, 0x00, 0x83, 0xB2, 0x4E,
      0xFA, 0xFF, 0x27, 0x9A, 0xEE, 0x2E, 0x00]))
    t.status = .done ∧ lowest t.obuf 10 = [97, 98, 99, 100, 97, 98, 99, 99, 99, 99] ∧ t.brPos = 146 := by
  decide +kernel

theorem test_obSetlen : (after (exec .obSetlen { base with arg0 := 6 })).olen = 6 := rfl
theorem test_obSetlen_too_long : (after (exec .obSetlen { base with arg0 := 65 })).err = 16 := by decide

/-- V3.6, V3.1. -/
theorem test_crc : crc32 (bytes [0x31, 0x32, 0x33, 0x34, 0x35, 0x36, 0x37, 0x38, 0x39]) = 0xCBF43926 ∧
    crc32 [] = 0 := by decide +kernel

/-- V3.4. -/
theorem test_crcCompute :
    (after (exec .crcCompute { reading [0x49, 0x45, 0x4E, 0x44] 0 with arg1 := 4 })).res0 = 0xAE426082 := by
  decide +kernel

/-- V3.13, both outcomes. -/
theorem test_crcCheck :
    (after (exec .crcCheck { reading [0x49, 0x45, 0x4E, 0x44, 0xAE, 0x42, 0x60, 0x82] 0 with arg1 := 4 })).status
      = .done ∧
    (after (exec .crcCheck { reading [0x49, 0x45, 0x4E, 0x44, 0xAE, 0x42, 0x60, 0x83] 0 with arg1 := 4 })).err
      = 3 := by decide +kernel

/-- DF2: `bpp = 3`. -/
theorem test_defilter :
    let t := after (exec .defilter (rows [0x01, 0x0A, 0x14, 0x1E, 0x01, 0x02, 0x03, 0x04, 0x05, 0x05, 0x05, 0xC8,
      0x64, 0x32] 7 2 3 8))
    t.rlen = 12 ∧ lowest t.rbuf 12 =
      [0x0A, 0x14, 0x1E, 0x0B, 0x16, 0x21, 0x0F, 0x19, 0x23, 0xD7, 0x7D, 0x55] := by decide +kernel

/-- DF8: an illegal tag in row 1. -/
theorem test_defilter_illegal :
    (after (exec .defilter (rows [0x00, 0x01, 0x02, 0x05, 0x03, 0x04] 3 2 1 8))).err = 10 := by decide +kernel

/-- V8.1. -/
theorem test_cmdIllegal : (after (exec (.cmdIllegal 0x7F) base)).err = 16 := rfl

/-! ### Stream-level instructions -/

/-- At a block header, the cursor after its three bits, in the stream of S1. -/
def atHeader : State :=
  { within { Work.idle with level := .blkhdr } [0x78, 0x01, 0x01, 0x03, 0x00, 0xFC, 0xFF, 0x41, 0x42, 0x43] with
    brPos := 19 }

/-- S1. -/
theorem test_blkStored :
    let t := after (exec (.blkStored true) atHeader)
    t.status = .done ∧ lowest t.obuf 3 = [0x41, 0x42, 0x43] ∧ t.brPos = 80 ∧ t.warn = 0 := by decide +kernel

/-- S2: `NLEN` does not match. -/
theorem test_blkStored_warns :
    (after (exec (.blkStored true) { atHeader with
      ibuf := base.ibuf.load 0 (bytes [0x78, 0x01, 0x01, 0x02, 0x00, 0x00, 0x00, 0x41, 0x42]) })).warn = 1 := by
  decide +kernel

theorem test_blkFixed :
    (after (exec (.blkFixed false) atHeader)).work = { Work.idle with level := .llsym, fixedDist := true } := by
  decide +kernel

/-- DE1's header: HLIT 257, HDIST 1, code-length symbols 0 and 16. -/
theorem test_blkDynamic :
    let t := after (exec (.blkDynamic true)
      { within { Work.idle with level := .blkhdr } [0x78, 0x01, 0x05, 0x00, 0x02, 0x24] with brPos := 19 })
    t.brPos = 45 ∧ t.work.hlit = 257 ∧ t.work.hdist = 1 ∧
      (t.slotCL.bind fun tab => tab.find 1 1) = some 16 := by decide +kernel

theorem test_blkReserved : (after (exec (.blkReserved false) atHeader)).err = 6 := rfl

/-- In the symbol loop of a fixed block, `OBUF = "ab"`. -/
def inSymbols (l : List Nat) : State :=
  { within { Work.idle with level := .llsym, fixedDist := true } l with
    obuf := base.obuf.load 0 (bytes [0x61, 0x62]), olen := 2 }

theorem test_lit : lowest (after (exec (.lit 0x43) (inSymbols [0]))).obuf 3 = [0x61, 0x62, 0x43] := by decide
theorem test_lit_full :
    (after (exec (.lit 0x43) { inSymbols [0] with params := ⟨64, 2, 64, false⟩ })).err = 15 := by decide
theorem test_eob : (after (exec .eob (inSymbols [0]))).work = { Work.idle with level := .blkhdr } := by decide

/-- The largest length of every length symbol (R260 to R288): its extra field all ones. -/
theorem test_lengths :
    (lengthInstrs.map fun i => (after (exec i (inSymbols [0xFF]))).work.length) =
      [3, 4, 5, 6, 7, 8, 9, 10, 12, 14, 16, 18, 22, 26, 30] ++
      [34, 42, 50, 58, 66, 82, 98, 114, 130, 162, 194, 226, 258, 258] := by decide +kernel

/-- The smallest length of every length symbol. -/
theorem test_lengths_base :
    (lengthInstrs.map fun i => (after (exec i (inSymbols [0]))).work.length) =
      [3, 4, 5, 6, 7, 8, 9, 10, 11, 13, 15, 17, 19, 23, 27] ++
      [31, 35, 43, 51, 59, 67, 83, 99, 115, 131, 163, 195, 227, 258] := by decide +kernel

/-- A copy of one byte at distance `d` from the end of 40000 bytes, of which the byte there is 7. -/
def farByte (l : List Nat) (d : Nat) : State :=
  { within { Work.idle with level := .dsym, fixedDist := true, length := 1 } l with
    params := ⟨64, 50000, 64, false⟩, olen := 40000, obuf := base.obuf.set (40000 - d) 7 }

/-- Whether a distance symbol copies from distance `d` when its extra field is the given bytes. -/
def copiesFrom (l : List Nat) (i : Instr) (d : Nat) : Bool :=
  (after (exec i (farByte l d))).obuf.cells == [(40000 - d, 7), (40000, 7)]

/-- The largest distance of every distance symbol (R290 to R319). -/
theorem test_distances :
    ((distanceInstrs.zip
      ([1, 2, 3, 4, 6, 8, 12, 16, 24, 32, 48, 64, 96, 128, 192] ++ [256, 384, 512, 768, 1024, 1536, 2048, 3072,
        4096, 6144] ++ [8192, 12288, 16384, 24576, 32768])).all fun p => copiesFrom [0xFF, 0xFF] p.1 p.2) = true := by
  decide +kernel

/-- The smallest distance of every distance symbol. -/
theorem test_distances_base :
    ((distanceInstrs.zip
      ([1, 2, 3, 4, 5, 7, 9, 13, 17, 25, 33, 49, 65, 97, 129] ++ [193, 257, 385, 513, 769, 1025, 1537, 2049,
        3073, 4097] ++ [6145, 8193, 12289, 16385, 24577])).all fun p => copiesFrom [0, 0] p.1 p.2) = true := by
  decide +kernel

/-- R352's example: `copy(5, 2)` on "ab". -/
theorem test_overlap :
    lowest (after (exec .dist1 { inSymbols [0] with
      work := { Work.idle with level := .dsym, fixedDist := true, length := 5 } })).obuf 7 =
      [0x61, 0x62, 0x61, 0x62, 0x61, 0x62, 0x61] := by decide

/-- E3: distance 3 with two bytes of output. -/
theorem test_backref_out_of_range :
    (after (exec .dist2 { inSymbols [0] with
      work := { Work.idle with level := .dsym, fixedDist := true, length := 3 } })).err = 9 := by decide

theorem test_invalid_symbols :
    (after (exec .llInvalid286 (inSymbols [0]))).err = 12 ∧ (after (exec .llInvalid287 (inSymbols [0]))).err = 12 ∧
    (after (exec (.llUnreachable 288) (inSymbols [0]))).err = 12 ∧
    (after (exec (.dInvalid false) (inSymbols [0]))).err = 12 := by decide

/-- In the code-length loop, one length of value 3 produced. -/
def inLengths (l : List Nat) : State :=
  { within { Work.idle with level := .clsym, hlit := 257, hdist := 1, produced := 1 } l with
    lens := base.lens.load 0 [3] }

theorem test_clLen : (after (exec (.clLen 5) (inLengths [0]))).lens.get 1 = 5 := by decide

/-- R246's example: three more 3s. -/
theorem test_clRep :
    let t := after (exec .clRep (inLengths [0]))
    t.work.produced = 4 ∧ t.lens.get 3 = 3 ∧ t.brPos = 2 := by decide

/-- R247's example: ten 0s. -/
theorem test_clZrep3 :
    let t := after (exec .clZrep3 (inLengths [0xFF]))
    t.work.produced = 11 ∧ t.lens.get 10 = 0 ∧ t.brPos = 3 := by decide

/-- R248's example: extra bits `0 1 1 0 1 0 1`, 97 zeros. -/
theorem test_clZrep11 :
    let t := after (exec .clZrep11 (inLengths [0b01010110]))
    t.work.produced = 98 ∧ t.lens.get 97 = 0 ∧ t.brPos = 7 := by decide +kernel

theorem test_clUnreachable : (after (exec (.clUnreachable 19) (inLengths [0]))).work.produced = 12 := by
  decide +kernel

/-- DE1 and DE2: nothing to repeat, and a repeat past the end. -/
theorem test_bad_repeats :
    (after (exec .clRep { inLengths [0] with
      work := { Work.idle with level := .clsym, hlit := 257, hdist := 1 } })).err = 13 ∧
    (after (exec .clZrep3 { inLengths [0xFF] with
      work := { Work.idle with level := .clsym, hlit := 257, hdist := 1, produced := 249 } })).err = 13 := by
  decide +kernel

/-- The row of V's filter examples after the previous reconstructed row, in row 1 of two. -/
def inRow (prev row : List Nat) : State :=
  { rows ([0, 0, 0, 0, 0, 0] ++ row) 5 2 1 8 with
    status := .busy, rbuf := base.rbuf.load 0 (bytes prev), work := { Work.idle with level := .ftag, row := 1 } }

/-- The row after an instruction. -/
def secondRow (i : Instr) (s : State) : List Nat := (lowest (after (exec i s)).rbuf 8).drop 4

/-- The examples of R364 to R368 (DF1, rows 0 to 4). -/
theorem test_ftNone : secondRow .ftNone (inRow [0, 0, 0, 0] [0x0A, 0x14, 0x1E, 0x28]) = [0x0A, 0x14, 0x1E, 0x28] := by
  decide +kernel
theorem test_ftSub : secondRow .ftSub (inRow [0, 0, 0, 0] [0x05, 0x05, 0xFA, 0x0A]) = [0x05, 0x0A, 0x04, 0x0E] := by
  decide +kernel
theorem test_ftUp : secondRow .ftUp (inRow [0x05, 0x0A, 0x04, 0x0E] [1, 2, 3, 4]) = [0x06, 0x0C, 0x07, 0x12] := by
  decide +kernel
theorem test_ftAverage :
    secondRow .ftAverage (inRow [0x06, 0x0C, 0x07, 0x12] [0x64, 0x64, 0x64, 0x64]) = [0x67, 0x9D, 0xB6, 0xC8] := by
  decide +kernel
theorem test_ftPaeth :
    secondRow .ftPaeth (inRow [0x67, 0x9D, 0xB6, 0xC8] [7, 7, 7, 7]) = [0x6E, 0xA4, 0xBD, 0xCF] := by
  decide +kernel
theorem test_ftIllegal : (after (exec (.ftIllegal 5) (inRow [0, 0, 0, 0] [0, 0, 0, 0]))).err = 10 := by decide

/-- Rows of the Paeth table. -/
theorem test_paeth : paeth 50 60 55 = 55 ∧ paeth 255 255 0 = 255 ∧ paeth 200 200 100 = 200 ∧ paeth 0 255 0 = 255 := by
  decide

/-! ### The step and the host -/

/-- V8.7: a write to a read-only register, and a write of 0x1F to `LENS[0]`. -/
theorem test_host_access :
    (after (step { base with pending := [.writeReg 9 5] })).brPos = 0 ∧
    (after (step { base with pending := [.writeCell .lens 0 0x1F] })).lens.get 0 = 15 := by decide

/-- A write to `CMD` runs the command. -/
theorem test_step_command : (after (step { base with pending := [.writeReg 0 0x13] })).status = .done := by decide

/-- The next bits of a stream are its next instruction: `10010001` in a fixed block is literal 97 (F1). -/
theorem test_step_literal :
    let t := after (step { inSymbols [0x89] with slotLL := buildTable fixedLens })
    lowest t.obuf 3 = [0x61, 0x62, 0x61] ∧ t.brPos = 8 := by decide +kernel

/-- A table word placed for the next step is the instruction the decoder reads from it. -/
theorem test_withFetchWord : (after (step (State.reset.withFetchWord 16 0x101))).work.length = 3 ∧
    decodeTableWord 16 0x101 = some .len257 := by decide +kernel

/-- F1 in stream notation (R120). -/
theorem test_notation :
    assemble ([.zhdr 0x78 0x01, .block true 1, fixedSym 97] ++ fixedMatch 4 1 ++ [fixedSym 256]) =
      bytes [0x78, 0x01, 0x4B, 0x04, 0x01, 0x00] := by decide +kernel

/-! ### The container (R188, R189) -/

/-- P5 up to its IDAT chunks. -/
def p5Head : List Byte := pngSignature ++ bytes
  [0, 0, 0, 0x0D, 0x49, 0x48, 0x44, 0x52, 0, 0, 0, 2, 0, 0, 0, 2, 8, 2, 0, 0, 0, 0xFD, 0xD4, 0x9A, 0x73]

/-- The IDAT chunk of P5 with the last byte of its CRC as given (variant d). -/
def p5Idat (last : Nat) : List Byte := bytes
  [0, 0, 0, 0x19, 0x49, 0x44, 0x41, 0x54, 0x78, 0x01, 0x01, 0x0E, 0x00, 0xF1, 0xFF, 0x00, 0xFF, 0x00, 0x00, 0x00,
    0xFF, 0x00, 0x00, 0x00, 0x00, 0xFF, 0xFF, 0xFF, 0xFF, 0x1F, 0xEE, 0x05, 0xFB, 0xDE, 0xDD, 0xEC, last]

/-- P5's IDAT payload in two chunks (variant c). -/
def p5Split : List Byte := bytes
  [0, 0, 0, 9, 0x49, 0x44, 0x41, 0x54, 0x78, 0x01, 0x01, 0x0E, 0x00, 0xF1, 0xFF, 0x00, 0xFF, 0x17, 0xDC, 0x10,
    0x66, 0, 0, 0, 0x10, 0x49, 0x44, 0x41, 0x54, 0x00, 0x00, 0x00, 0xFF, 0x00, 0x00, 0x00, 0x00, 0xFF, 0xFF, 0xFF,
    0xFF, 0x1F, 0xEE, 0x05, 0xFB, 0x51, 0x1C, 0xE3, 0xE0]

def p5Iend : List Byte := bytes [0, 0, 0, 0, 0x49, 0x45, 0x4E, 0x44, 0xAE, 0x42, 0x60, 0x82]

/-- The image a decode delivers. -/
def imageOf : HostRes Image → Option Image
  | .ok image _ => some image
  | _ => none

/-- The failure a decode ends in, with `ERR` and `RES0` of the block it leaves. -/
def failureOf : HostRes Image → Option (Failure × Nat × Nat)
  | .fail k s => some (k, s.err.toNat, s.res0.toNat)
  | _ => none

theorem test_decodeImage_p5c : imageOf (decodeImage (p5Head ++ p5Split ++ p5Iend) base) =
    some ⟨2, 2, 8, 3, [bytes [0xFF, 0, 0, 0, 0xFF, 0], bytes [0, 0, 0xFF, 0xFF, 0xFF, 0xFF]]⟩ := by decide +kernel

/-- Variant d: the commands before the failure, and the one that raises it, have run. -/
theorem test_decodeImage_p5d : failureOf (decodeImage (p5Head ++ p5Idat 0x2C ++ p5Iend) base) =
    some (.crcMismatch, 3, 0xDEDDEC2B) := by decide +kernel

/-- A file cut after its IHDR chunk and 12 bytes: `CRC_CHECK` of IHDR has run (`RES0` as in P5), then R179. -/
theorem test_decodeImage_truncated : failureOf (decodeImage (p5Head ++ (p5Idat 0x2B).take 12) base) =
    some (.truncatedChunk, 0, 0xFDD49A73) := by decide +kernel

/-- R187: a row length of `2^32 + 1` is `BadCommand` by the operand 0. -/
theorem test_rowBytesOperand : scanlineBytes (2 ^ 30) 4 8 = 2 ^ 32 + 1 ∧
    rowBytesOperand (scanlineBytes (2 ^ 30) 4 8) 1 = 0 := by decide

/-! ### Witnesses: concrete states that meet the hypotheses of the statements, clause by clause -/

/-- The invariant of a state whose slots hold nothing or fitting tables, from facts that evaluate. -/
theorem inv_of {s : State} (hp : s.params.wf = true)
    (hr : s.brLen.toNat ≤ s.params.ibufCap ∧ s.brPos.toNat ≤ 8 * s.brLen.toNat ∧
      s.olen.toNat ≤ s.params.obufCap ∧ s.rlen.toNat ≤ s.params.rbufCap ∧ (s.err ≠ 0 ↔ s.status = .fault))
    (hm : (s.ibuf.wf ∧ s.obuf.wf ∧ s.rbuf.wf ∧ s.lens.wf) ∧ s.ibuf.within s.params.ibufCap ∧
      s.obuf.within s.params.obufCap ∧ s.rbuf.within s.params.rbufCap ∧ s.lens.within 320)
    (hs : SlotOk 19 s.slotCL ∧ SlotOk 288 s.slotLL ∧ SlotOk 32 s.slotD)
    (hv : ∀ k, slotValid k s = true → (slotTable k s).isSome = true) (hl : LevelOk s) : Inv s :=
  ⟨hp, ⟨hr.1, hr.2.1, hr.2.2.1, hr.2.2.2.1, hr.2.2.2.2⟩,
    ⟨hm.1.1, hm.1.2.1, hm.1.2.2.1, hm.1.2.2.2, hm.2.1, hm.2.2.1, hm.2.2.2.1, hm.2.2.2.2⟩,
    ⟨hs.1, hs.2.1, hs.2.2, hv⟩, hl⟩

theorem slotOk_none (n : Nat) : SlotOk n none := nofun

theorem slotOk_oneCode {n : Nat} {sym : BitVec 9} (h : sym.toNat < n) : SlotOk n (some (oneCode sym)) := by
  rintro t ⟨⟩
  refine ⟨show 1 ≤ 15 by decide, fun e he => ?_⟩
  obtain rfl := List.mem_singleton.1 he
  exact ⟨Nat.le_refl 1, Nat.le_refl 1, h⟩

theorem slotOk_built {n : Nat} {lens : List Nat} (hn : lens.length = n) (hl : ∀ l ∈ lens, l ≤ 15)
    (h : n ≤ 512) : SlotOk n (buildTable lens) := fun _ ht => hn ▸ buildTable_ok ht hl (by omega)

/-- No slot is valid when `HT_VALID` is 0. -/
theorem no_valid {s : State} (h : s.htValid = 0) (k : Nat) (hk : slotValid k s = true) :
    (slotTable k s).isSome = true := by
  simp [slotValid, h] at hk

theorem ranges_of {s : State} (hr : s.brLen.toNat ≤ s.params.ibufCap ∧ s.brPos.toNat ≤ 8 * s.brLen.toNat ∧
      s.olen.toNat ≤ s.params.obufCap ∧ s.rlen.toNat ≤ s.params.rbufCap ∧ (s.err ≠ 0 ↔ s.status = .fault)) :
    Ranges s := ⟨hr.1, hr.2.1, hr.2.2.1, hr.2.2.2.1, hr.2.2.2.2⟩

theorem inv_base : Inv base :=
  inv_of (by decide) (by decide) (by decide) ⟨slotOk_none _, slotOk_none _, slotOk_none _⟩ (no_valid rfl)
    ⟨rfl, by decide⟩

theorem inv_faulted : Inv faulted :=
  inv_of (by decide) (by decide) (by decide) ⟨slotOk_none _, slotOk_none _, slotOk_none _⟩ (no_valid rfl)
    ⟨rfl, by decide⟩

theorem witness_ResetValues : 0 < 1 := Nat.one_pos

theorem witness_NopAndClear : base.status ≠ .fault ∧ faulted.status = .fault := by decide

theorem witness_IllegalCommand : base.status ≠ .fault ∧
    (0x03#8).toNat ∉ [0x00, 0x01, 0x02, 0x10, 0x11, 0x12, 0x13, 0x20, 0x21, 0x30, 0x31, 0x40, 0x41, 0x50] := by
  decide

theorem witness_CommandOutcome :
    (Instr.inflate.format = .cmd ∧ Inv faulted ∧ faulted.atHost ∧ faulted.status = .fault ∧
      Instr.inflate ≠ .reset ∧ Instr.inflate ≠ .clr) ∧
    (Inv base ∧ base.atHost ∧ base.status ≠ .fault) ∧ (Instr.reset.format = .cmd ∧ Instr.clr.format = .cmd) :=
  ⟨⟨rfl, inv_faulted, rfl, rfl, by decide, by decide⟩, ⟨inv_base, rfl, by decide⟩, rfl, rfl⟩

theorem witness_CommandsKeepInvariant : Instr.defilter.format = .cmd ∧ Inv base ∧ base.atHost :=
  ⟨rfl, inv_base, rfl⟩

theorem witness_FrameTable : Instr.brInit.format = .cmd ∧ (∃ t, exec .brInit base = .next t) ∧
    Instr.brInit ≠ .reset ∧ Instr.brInit ≠ .inflate ∧ Instr.brInit ≠ .defilter ∧
    Instr.brInit ∉ [.reset, .brRead, .brReadRev, .brRemaining, .htDecode, .crcCompute, .crcCheck] ∧
    Instr.nop ∉ [.reset, .brInit, .inflate] ∧
    Instr.nop ∉ [.reset, .brInit, .brRead, .brReadRev, .htDecode, .inflate] ∧
    Instr.brInit ∉ [.reset, .inflate, .obSetlen] ∧ Instr.brInit ∉ [.reset, .defilter] ∧
    Instr.brInit ∉ [.reset, .clr, .inflate] ∧ Instr.brInit ∉ [.reset, .htBuild, .inflate] :=
  ⟨rfl, ⟨_, rfl⟩, by decide, by decide, by decide, by decide, by decide, by decide, by decide, by decide,
    by decide, by decide⟩

theorem witness_ContainerKindsNeverRaised : step base = .next base ∧ base.err ∉ [1, 2, 4] := ⟨rfl, by decide⟩

theorem witness_BrInitCommand :
    (base.status ≠ .fault ∧ { base with arg0 := 65 }.params.ibufCap < { base with arg0 := 65 }.arg0.toNat) ∧
    { base with arg0 := 64 }.arg0.toNat ≤ base.params.ibufCap := by decide

theorem witness_StreamBitFunction :
    (39 < 8 * (v2 1).brLen.toNat ∧ (v2 1).brOrder = 1) ∧ 39 < 8 * (v2 0).brLen.toNat ∧ (v2 0).brOrder = 0 := by
  decide

/-- The three clauses of the two read commands: 33 bits, 17 of 16 bits left, and exactly the 16 left. -/
theorem witness_BrReadCommand :
    (base.status ≠ .fault ∧ 32 < { base with arg0 := 33 }.arg0.toNat) ∧
    (let s := { v2 1 with arg0 := 17, brPos := 24 }
     s.status ≠ .fault ∧ s.arg0.toNat ≤ 32 ∧ remainingBits s < s.arg0.toNat) ∧
    (let s := { v2 1 with arg0 := 16, brPos := 24 }
     s.status ≠ .fault ∧ s.arg0.toNat ≤ 32 ∧ s.arg0.toNat ≤ remainingBits s) := by decide

theorem witness_BrReadRevCommand :
    (base.status ≠ .fault ∧ 32 < { base with arg0 := 33 }.arg0.toNat) ∧
    (let s := { v2 1 with arg0 := 1, brPos := 40 }
     s.status ≠ .fault ∧ s.arg0.toNat ≤ 32 ∧ remainingBits s < s.arg0.toNat) ∧
    (let s := { v2 1 with arg0 := 0, brPos := 40 }
     s.status ≠ .fault ∧ s.arg0.toNat ≤ 32 ∧ s.arg0.toNat ≤ remainingBits s) := by decide

theorem witness_BrRemainingCommand : (v2 1).status ≠ .fault := by decide

theorem witness_ReadsAreReversed :
    (let s := { v2 1 with arg0 := 8, brPos := 8 }
     s.status ≠ .fault ∧ 1 ≤ s.arg0.toNat ∧ s.arg0.toNat ≤ 32 ∧ s.arg0.toNat ≤ remainingBits s ∧
      s.arg0 = 8 ∧ s.brPos.toNat % 8 = 0 ∧ s.brOrder = 1) ∧
    (let s := { v2 0 with arg0 := 8, brPos := 32 }
     s.status ≠ .fault ∧ 1 ≤ s.arg0.toNat ∧ s.arg0.toNat ≤ 32 ∧ s.arg0.toNat ≤ remainingBits s ∧
      s.arg0 = 8 ∧ s.brPos.toNat % 8 = 0 ∧ s.brOrder = 0) := by decide

theorem witness_CrcComputeCommand :
    (let s := { base with arg0 := 1, arg1 := 64 }
     s.status ≠ .fault ∧ s.params.ibufCap < s.arg0.toNat + s.arg1.toNat) ∧
    (let s := { base with arg0 := 0, arg1 := 64 }
     s.status ≠ .fault ∧ s.arg0.toNat + s.arg1.toNat ≤ s.params.ibufCap) := by decide

/-- V3.13: the matching and the differing stored CRC, and one byte too few. -/
theorem witness_CrcCheckCommand :
    (let s := { base with arg1 := 61 }
     s.status ≠ .fault ∧ s.params.ibufCap < s.arg0.toNat + s.arg1.toNat + 4) ∧
    (let m := base.ibuf.load 0 (bytes [0x49, 0x45, 0x4E, 0x44, 0xAE, 0x42, 0x60, 0x82])
     0 + 4 + 4 ≤ base.params.ibufCap ∧ (crc32 ((List.range 4).map fun i => m.get (0 + i))).toNat =
      (m.get 4).toNat * 2 ^ 24 + (m.get 5).toNat * 2 ^ 16 + (m.get 6).toNat * 2 ^ 8 + (m.get 7).toNat) ∧
    (let m := base.ibuf.load 0 (bytes [0x49, 0x45, 0x4E, 0x44, 0xAE, 0x42, 0x60, 0x83])
     (crc32 ((List.range 4).map fun i => m.get (0 + i))).toNat ≠
      (m.get 4).toNat * 2 ^ 24 + (m.get 5).toNat * 2 ^ 16 + (m.get 6).toNat * 2 ^ 8 + (m.get 7).toNat) := by
  decide +kernel

/-- The checks of slot and count, a build that succeeds, and one of no symbols. -/
theorem witness_HtBuildCommand :
    (v4.status ≠ .fault ∧ slotSize 0 < 20 ∧ slotSize 2 < 33 ∧ 2 < (3#32).toNat) ∧
    (v4.arg0.toNat ≤ 2 ∧ v4.arg1.toNat ≤ slotSize v4.arg0.toNat ∧
      ∃ l ∈ (List.range v4.arg1.toNat).map fun a => (v4.lens.get a).toNat, l ≠ 0) ∧
    (let s := { v4 with arg1 := 0 }
     s.arg1.toNat ≤ slotSize s.arg0.toNat ∧
      ∀ l ∈ (List.range s.arg1.toNat).map fun a => (s.lens.get a).toNat, l = 0) := by decide

theorem witness_CanonicalCodes : (∀ l ∈ [2, 1, 3, 3], l ≤ 15) ∧ [2, 1, 3, 3].length ≤ 288 ∧
    ∃ tab, buildTable [2, 1, 3, 3] = some tab := ⟨by decide, by decide, _, rfl⟩

/-- The table of V4.1 in slot 0, over the stream of V4.8. -/
def decoding : State := { v4 with slotCL := buildTable [2, 1, 3, 3], htValid := 1 }

theorem inv_decoding : Inv decoding := by
  refine inv_of (by decide) (by decide) (by decide)
    ⟨fun t h => ?_, slotOk_none _, slotOk_none _⟩ (fun k hk => ?_) ⟨rfl, by decide⟩
  · obtain ⟨h1, h2⟩ := buildTable_ok (show buildTable [2, 1, 3, 3] = some t from h) (by decide) (by decide)
    exact ⟨h1, fun e he => ⟨(h2 e he).1, (h2 e he).2.1, Nat.lt_trans (h2 e he).2.2 (by decide)⟩⟩
  · match k with
    | 0 => rfl
    | 1 => exact absurd hk (by decide)
    | 2 => exact absurd hk (by decide)
    | n + 3 => exact absurd hk (by simp [slotValid, decoding])

/-- A slot number above 2, a slot that is not valid; the code `0` of symbol 1; and a stream at its end. -/
theorem witness_HtDecodeCommand :
    (Inv decoding ∧ decoding.status ≠ .fault ∧ 2 < (3#32).toNat ∧ slotValid 1 decoding = false) ∧
    (∃ tab, slotValid 0 decoding = true ∧ slotTable 0 decoding = some tab ∧ 1 ≤ remainingBits decoding ∧
      tab.find 1 (codeSum decoding 0 1) = some 1 ∧ ∀ j, 1 ≤ j → j < 1 → tab.find j (codeSum decoding 0 j) = none) ∧
    ∀ m, 1 ≤ m → m ≤ remainingBits { decoding with brPos := 16 } → False :=
  ⟨⟨inv_decoding, by decide, by decide, by decide⟩, ⟨_, rfl, rfl, by decide, by decide, by omega⟩,
    fun m h1 h2 => absurd (Nat.le_trans h1 h2) (by decide)⟩

theorem witness_PrefixFreeCodes :
    (∀ l ∈ [2, 1, 3, 3], l ≤ 15) ∧ kraftSum [2, 1, 3, 3] ≤ 2 ^ 15 ∧ 2 < [2, 1, 3, 3].length ∧
      [2, 1, 3, 3].getD 2 0 ≠ 0 ∧ 3 < [2, 1, 3, 3].length ∧ [2, 1, 3, 3].getD 3 0 ≠ 0 ∧ 2 ≠ 3 := by decide

theorem witness_HuffmanRoundTrip :
    (∀ l ∈ [2, 1, 3, 3], l ≤ 15) ∧ kraftSum [2, 1, 3, 3] ≤ 2 ^ 15 ∧ (∃ tab, buildTable [2, 1, 3, 3] = some tab ∧
      slotTable 0 decoding = some tab) ∧ Inv decoding ∧
    (∀ sym ∈ [(1 : BitVec 9), 0, 2, 3, 1], [2, 1, 3, 3].getD sym.toNat 0 ≠ 0) ∧
    StreamBegins decoding ([(1 : BitVec 9), 0, 2, 3, 1].flatMap fun sym => symbolBits [2, 1, 3, 3] sym.toNat) :=
  ⟨by decide, by decide, ⟨_, rfl, rfl⟩, inv_decoding, by decide, by decide, by decide⟩

/-- A fixed block about to decode the literal 97, as in F1. -/
def fixedNext : State := { inSymbols [0x89] with slotLL := buildTable fixedLens }

theorem fixedTable_isSome : (buildTable fixedLens).isSome = true := by decide +kernel

theorem inv_fixedNext : Inv fixedNext := by
  have h : SlotOk 288 (buildTable fixedLens) :=
    slotOk_built (by decide +kernel) (by decide +kernel) (by decide)
  have h' := fixedTable_isSome
  have hp : (inSymbols [0x89]).params.wf = true := by decide
  have hr : Ranges (inSymbols [0x89]) := ranges_of (by decide)
  have hm : MemoriesOk (inSymbols [0x89]) :=
    ⟨by decide, by decide, by decide, by decide, by decide, by decide, by decide, by decide⟩
  unfold fixedNext
  generalize buildTable fixedLens = tab at h h'
  exact ⟨hp, ⟨hr.1, hr.2, hr.3, hr.4, hr.5⟩, ⟨hm.1, hm.2, hm.3, hm.4, hm.5, hm.6, hm.7, hm.8⟩,
    ⟨slotOk_none _, h, slotOk_none _, no_valid rfl⟩, ⟨rfl, rfl, rfl⟩, h', .inl rfl⟩

/-- In the symbol loop with a table of one code, the bit 0 for the literal 97. -/
def literalNext : State := { inSymbols [0] with slotLL := some (oneCode 97) }

theorem inv_literalNext : Inv literalNext :=
  inv_of (by decide) (by decide) (by decide) ⟨slotOk_none _, slotOk_oneCode (by decide), slotOk_none _⟩ (no_valid rfl)
    ⟨⟨rfl, rfl, rfl⟩, rfl, .inl rfl⟩

theorem fixedNext_fields (tab : Option Table) :
    ({ inSymbols [0x89] with slotLL := tab } : State).work.level = .llsym ∧
      ({ inSymbols [0x89] with slotLL := tab } : State).slotLL = tab := ⟨rfl, rfl⟩

theorem fixedNext_bits (tab : Option Table) :
    StreamBegins { inSymbols [0x89] with slotLL := tab } (fixedCode 97) :=
  show StreamBegins (inSymbols [0x89]) (fixedCode 97) from ⟨by decide, by decide⟩

/-- In a dynamic block: a code-length symbol, and a distance symbol, each with a table of one code. -/
def lengthNext : State :=
  { within { Work.idle with level := .clsym, hlit := 257, hdist := 1 } [0] with slotCL := some (oneCode 18) }
def distanceNext : State :=
  { within { Work.idle with level := .dsym, length := 258 } [0] with
    slotLL := some (oneCode 285), slotD := some (oneCode 31) }

/-- In a fixed block, before a distance symbol. -/
def fixedDistanceNext : State :=
  { within { Work.idle with level := .dsym, fixedDist := true, length := 3 } [0x1F] with slotLL := some (oneCode 257) }

theorem inv_lengthNext : Inv lengthNext :=
  inv_of (by decide) (by decide) (by decide)
    ⟨slotOk_oneCode (by decide), slotOk_none _, slotOk_none _⟩ (no_valid rfl)
    ⟨⟨rfl, rfl, rfl⟩, rfl, by decide, by decide, by decide, by decide, by decide⟩

theorem inv_distanceNext : Inv distanceNext :=
  inv_of (by decide) (by decide) (by decide)
    ⟨slotOk_none _, slotOk_oneCode (by decide), slotOk_oneCode (by decide)⟩ (no_valid rfl)
    ⟨⟨rfl, rfl, rfl⟩, ⟨rfl, .inr rfl⟩, by decide, by decide⟩

theorem inv_fixedDistanceNext : Inv fixedDistanceNext :=
  inv_of (by decide) (by decide) (by decide)
    ⟨slotOk_none _, slotOk_oneCode (by decide), slotOk_none _⟩ (no_valid rfl)
    ⟨⟨rfl, rfl, rfl⟩, ⟨rfl, .inl rfl⟩, by decide, by decide⟩

/-- The cursor may stand anywhere in the stream. -/
theorem inv_at {s : State} (h : Inv s) (pos : Word) (hp : pos.toNat ≤ 8 * s.brLen.toNat) :
    Inv { s with brPos := pos } :=
  ⟨h.params, ⟨h.ranges.brLen, hp, h.ranges.olen, h.ranges.rlen, h.ranges.err⟩,
    ⟨h.memories.ibufWf, h.memories.obufWf, h.memories.rbufWf, h.memories.lensWf, h.memories.ibufIn,
      h.memories.obufIn, h.memories.rbufIn, h.memories.lensIn⟩,
    ⟨h.slots.cl, h.slots.ll, h.slots.d, h.slots.valid⟩, h.level⟩

/-- The levels: the code `0` at each, the end of the stream at two; five bits and four before a fixed distance symbol;
and the literal 97 of F1. -/
theorem witness_FixedCodesFetched :
    (Inv lengthNext ∧ lengthNext.work.level = .clsym ∧
      slotTable 0 lengthNext = some (oneCode 18) ∧ 1 ≤ remainingBits lengthNext ∧
      (oneCode 18).find 1 (codeSum lengthNext 0 1) = some 18) ∧
    (Inv literalNext ∧ literalNext.work.level = .llsym ∧ slotTable 1 literalNext = some (oneCode 97) ∧
      1 ≤ remainingBits literalNext ∧ (oneCode 97).find 1 (codeSum literalNext 0 1) = some 97) ∧
    (Inv distanceNext ∧ distanceNext.work.level = .dsym ∧ distanceNext.work.fixedDist = false ∧
      slotTable 2 distanceNext = some (oneCode 31) ∧ 1 ≤ remainingBits distanceNext ∧
      (oneCode 31).find 1 (codeSum distanceNext 0 1) = some 31) ∧
    (Inv { lengthNext with brPos := 8 } ∧ remainingBits { lengthNext with brPos := 8 } = 0) ∧
    (Inv { distanceNext with brPos := 8 } ∧ remainingBits { distanceNext with brPos := 8 } = 0) ∧
    (Inv { fixedDistanceNext with brPos := 3 } ∧ remainingBits { fixedDistanceNext with brPos := 3 } = 5 ∧
      fixedDistanceNext.work.level = .dsym ∧ fixedDistanceNext.work.fixedDist = true) ∧
    (Inv { fixedDistanceNext with brPos := 4 } ∧ remainingBits { fixedDistanceNext with brPos := 4 } < 5) ∧
    Inv fixedNext ∧ fixedNext.work.level = .llsym ∧ fixedNext.slotLL = buildTable fixedLens ∧ 97 < 288 ∧
      StreamBegins fixedNext (fixedCode 97) :=
  ⟨⟨inv_lengthNext, rfl, rfl, by decide, by decide⟩,
    ⟨inv_literalNext, rfl, rfl, by decide, by decide⟩,
    ⟨inv_distanceNext, rfl, rfl, rfl, by decide, by decide⟩,
    ⟨inv_at inv_lengthNext 8 (by decide), by decide⟩, ⟨inv_at inv_distanceNext 8 (by decide), by decide⟩,
    ⟨inv_at inv_fixedDistanceNext 3 (by decide), by decide, rfl, rfl⟩,
    ⟨inv_at inv_fixedDistanceNext 4 (by decide), by decide⟩,
    inv_fixedNext, (fixedNext_fields _).1, (fixedNext_fields _).2, by decide, fixedNext_bits _⟩

/-- Too long for `IBUF`; one byte; and E2, whose `FLG` is 0xBB. -/
theorem witness_InflateHeaderFailures :
    (base.params.wf = true ∧ base.status ≠ .fault ∧ base.params.ibufCap < (65#32).toNat) ∧
    (zlib [0x78]).arg0.toNat < 2 ∧
    (let s := zlib [0x78, 0xBB, 0x03, 0x00]
     2 ≤ s.arg0.toNat ∧ s.arg0.toNat ≤ s.params.ibufCap ∧ (s.ibuf.get 1).getLsbD 5 = true) := by decide

/-- F1 and S1 as bytes in `IBUF`. -/
def f1 : State := zlib [0x78, 0x01, 0x4B, 0x04, 0x01, 0x00]

theorem inv_f1 : Inv f1 :=
  inv_of (by decide) (by decide) (by decide) ⟨slotOk_none _, slotOk_none _, slotOk_none _⟩ (no_valid rfl)
    ⟨rfl, by decide⟩

/-- A run that completes (F1) and one that fails (E1). -/
theorem witness_InflateDefines :
    (f1.params.wf = true ∧ f1.status ≠ .fault ∧ f1.arg0.toNat ≤ f1.params.ibufCap ∧
      (after (exec .inflate f1)).status = .done) ∧
    (after (exec .inflate { zlib [0x78, 0x01, 0x07] with warn := 1 })).status = .fault := by decide +kernel

/-- Two stored blocks: `41`, then `42 43`, final. -/
theorem witness_StoredStreamDecodes :
    let x := storedStream 0x78 0x01 [[0x41]] [0x42, 0x43]
    let s := zlib (x.map BitVec.toNat)
    s.params.wf = true ∧ s.status ≠ .fault ∧ s.arg0.toNat ≤ s.params.ibufCap ∧ (0x01#8).getLsbD 5 = false ∧
    x.length ≤ s.arg0.toNat ∧ 3 ≤ s.params.obufCap ∧ ∀ i, i < x.length → s.ibuf.get i = x.getD i 0 := by decide

theorem witness_FixedStreamDecodes :
    let items := [Item.literal 97, .backref 1 0 0 0]
    let bits := [true, true, false] ++ items.flatMap Item.fixedBits ++ fixedCode 256
    f1.params.wf = true ∧ f1.status ≠ .fault ∧ f1.arg0.toNat ≤ f1.params.ibufCap ∧
    (f1.ibuf.get 1).getLsbD 5 = false ∧ (∀ y ∈ items, y.ok) ∧
    expandItems [] items = some [97, 97, 97, 97, 97] ∧ 16 + bits.length ≤ 8 * f1.arg0.toNat ∧
    ∀ i, i < bits.length → (f1.ibuf.get ((16 + i) / 8)).getLsbD ((16 + i) % 8) = bits.getD i false :=
  ⟨by decide, by decide, by decide, by decide, by simp [Item.ok, lengthTable, distanceTable], by decide, by decide,
    by decide⟩

theorem witness_InflateIsItsStream : Inv f1 ∧ f1.atHost ∧ f1.status ≠ .fault ∧
    f1.arg0.toNat ≤ f1.params.ibufCap ∧ ∃ t, zlibHeader (enterInflate f1) = .ok () t :=
  ⟨inv_f1, rfl, by decide, by decide, _, rfl⟩

theorem witness_StreamProgress : Inv literalNext ∧ literalNext.work.level ≠ .cmd ∧ literalNext.work.level ≠ .ftag ∧
    (after (step literalNext)).status = .busy :=
  ⟨inv_literalNext, by decide, by decide, by decide +kernel⟩

/-- At a block header whose bits are `1 1 0`. -/
def headerNext : State := within { Work.idle with level := .blkhdr } [0x03]

theorem inv_headerNext : Inv headerNext :=
  inv_of (by decide) (by decide) (by decide) ⟨slotOk_none _, slotOk_none _, slotOk_none _⟩ (no_valid rfl)
    ⟨rfl, rfl, rfl⟩

theorem inv_headerShort : Inv { headerNext with brPos := 6 } :=
  inv_of (by decide) (by decide) (by decide) ⟨slotOk_none _, slotOk_none _, slotOk_none _⟩ (no_valid rfl)
    ⟨rfl, rfl, rfl⟩

theorem witness_BlockHeaderFetched :
    (Inv headerNext ∧ headerNext.work.level = .blkhdr ∧ StreamBegins headerNext [true, true, false]) ∧
    Inv { headerNext with brPos := 6 } ∧ remainingBits { headerNext with brPos := 6 } < 3 :=
  ⟨⟨inv_headerNext, rfl, by decide, by decide⟩, inv_headerShort, by decide⟩

/-- S1 after its block header, its complement right. -/
theorem witness_StoredBlockRuns :
    let s := atHeader
    let j := (s.brPos.toNat + 7) / 8
    let len := (s.ibuf.get j).toNat + 256 * (s.ibuf.get (j + 1)).toNat
    let nlen := (s.ibuf.get (j + 2)).toNat + 256 * (s.ibuf.get (j + 3)).toNat
    s.params.wf = true ∧ Ranges s ∧ s.brOrder = 1 ∧ j + 4 + len ≤ s.brLen.toNat ∧
      s.olen.toNat + len ≤ s.params.obufCap ∧ (len = nlen ^^^ 0xFFFF ∨ s.params.strictNlen = false) :=
  ⟨by decide, ranges_of (by decide), rfl, by decide, by decide, by decide⟩

/-- The stream cut inside `NLEN`; S2 in strict mode; S1 cut inside its data; and a full `OBUF`. -/
theorem witness_StoredBlockFails :
    (Ranges { atHeader with brLen := 6 } ∧ (6#32).toNat < (19 + 7) / 8 + 4) ∧
    (let s := { atHeader with
      ibuf := base.ibuf.load 0 (bytes [0x78, 0x01, 0x01, 0x02, 0x00, 0x00, 0x00, 0x41, 0x42]), brLen := 9
      params := ⟨64, 64, 64, true⟩ }
     Ranges s ∧ 3 + 4 ≤ s.brLen.toNat ∧ s.params.strictNlen = true ∧
      (s.ibuf.get 3).toNat + 256 * (s.ibuf.get 4).toNat ≠
        ((s.ibuf.get 5).toNat + 256 * (s.ibuf.get 6).toNat) ^^^ 0xFFFF) ∧
    (let s := { atHeader with brLen := 9 }
     Ranges s ∧ 3 + 4 ≤ s.brLen.toNat ∧ s.params.strictNlen = false ∧ s.brLen.toNat < 3 + 4 + 3 ∧
      s.olen.toNat + (s.brLen.toNat - (3 + 4)) ≤ s.params.obufCap) ∧
    (let s := { atHeader with params := ⟨64, 2, 64, false⟩ }
     Ranges s ∧ s.params.strictNlen = false ∧ s.params.obufCap < s.olen.toNat + 3 ∧
      s.params.obufCap < s.olen.toNat + (s.brLen.toNat - (3 + 4))) :=
  ⟨⟨ranges_of (by decide), by decide⟩, ⟨ranges_of (by decide), by decide, by decide, by decide⟩,
    ⟨ranges_of (by decide), by decide, by decide, by decide, by decide⟩, ranges_of (by decide), by decide, by decide,
    by decide⟩

/-- DE1's header, DE4's (all lengths 0), and one cut short. -/
theorem witness_DynamicHeaderRead :
    (let s := { within { Work.idle with level := .blkhdr } [0x78, 0x01, 0x05, 0x00, 0x02, 0x24] with brPos := 19 }
     let n := 4 + integerSum s (19 + 10) 4
     s.params.wf = true ∧ Ranges s ∧ 14 + 3 * n ≤ remainingBits s ∧
      ∃ l ∈ (List.range 19).map (clField s 19 n), l ≠ 0) ∧
    (let s := { within { Work.idle with level := .blkhdr } [0x78, 0x01, 0x05, 0x00, 0x00, 0x00] with brPos := 19 }
     let n := 4 + integerSum s (19 + 10) 4
     Ranges s ∧ 14 + 3 * n ≤ remainingBits s ∧ ∀ l ∈ (List.range 19).map (clField s 19 n), l = 0) ∧
    (let s := { within { Work.idle with level := .blkhdr } [0x78, 0x01, 0x05, 0x00] with brPos := 19 }
     Ranges s ∧ remainingBits s < 14 + 3 * 4) :=
  ⟨⟨by decide, ranges_of (by decide), by decide +kernel, by decide +kernel⟩,
    ⟨ranges_of (by decide), by decide +kernel, by decide +kernel⟩, ranges_of (by decide), by decide⟩

/-- One row for each kind of code-length symbol, one length produced before it. -/
theorem witness_CodeLengthsProduced :
    let s := inLengths [0xFF]
    (codeLengthRow s (.clLen 5) = some (0, 1, 5) ∧ codeLengthRow s .clRep = some (2, 3, 3) ∧
      codeLengthRow s .clZrep3 = some (3, 3, 0) ∧ codeLengthRow s .clZrep11 = some (7, 11, 0)) ∧
    s.params.wf = true ∧ Ranges s ∧ 0 < s.work.produced ∧ 7 ≤ remainingBits s ∧
      s.work.produced + (11 + integerSum s s.brPos.toNat 7) < s.work.hlit + s.work.hdist :=
  ⟨by decide, by decide, ranges_of (by decide), by decide, by decide, by decide +kernel⟩

/-- Two lengths for two alphabets of one symbol each: the last of them given as 1, and as 0. -/
def lastLength : State :=
  { within { Work.idle with level := .clsym, hlit := 1, hdist := 1, produced := 1 } [0xFF] with
    lens := base.lens.load 0 [1] }

theorem witness_CodeLengthsComplete :
    let s := lastLength
    s.params.wf = true ∧ Ranges s ∧ codeLengthRow s (.clLen 1) = some (0, 1, 1) ∧ 0 ≤ remainingBits s ∧
      s.work.produced + (1 + integerSum s s.brPos.toNat 0) = s.work.hlit + s.work.hdist ∧
      (∃ l ∈ (List.range s.work.hlit).map fun a => (lensAfter s 1 1 a).toNat, l ≠ 0) ∧
      (∃ l ∈ (List.range s.work.hdist).map fun a => (lensAfter s 1 1 (s.work.hlit + a)).toNat, l ≠ 0) ∧
      ∀ l ∈ (List.range s.work.hdist).map fun a => (lensAfter s 1 0 (s.work.hlit + a)).toNat, l = 0 :=
  ⟨by decide, ranges_of (by decide), rfl, by decide, by decide, by decide, by decide, by decide⟩

/-- Symbol 16 first; an extra field at the end of the stream; and a repeat past the end. -/
theorem witness_CodeLengthFailures :
    (let s := { lastLength with work := { lastLength.work with produced := 0 } }
     Ranges s ∧ s.params.wf = true ∧ s.work.produced = 0 ∧ (codeLengthRow s .clRep).isSome = true) ∧
    (let s := { lastLength with brPos := 8 }
     Ranges s ∧ 0 < s.work.produced ∧ remainingBits s < 2) ∧
    (let s := lastLength
     codeLengthRow s .clZrep3 = some (3, 3, 0) ∧ 3 ≤ remainingBits s ∧
      s.work.hlit + s.work.hdist < s.work.produced + (3 + integerSum s s.brPos.toNat 3)) :=
  ⟨⟨ranges_of (by decide), by decide, by decide, by decide⟩, ⟨ranges_of (by decide), by decide, by decide⟩, rfl,
    by decide, by decide +kernel⟩

theorem witness_LiteralAppended : (inSymbols [0]).olen.toNat < (inSymbols [0]).params.obufCap ∧
    { inSymbols [0] with params := ⟨64, 2, 64, false⟩ }.olen.toNat =
      { inSymbols [0] with params := ⟨64, 2, 64, false⟩ }.params.obufCap := by decide

theorem witness_EndOfBlock : (inSymbols [0]).work.bfinal = false ∧
    { inSymbols [0] with work := { Work.idle with level := .llsym, bfinal := true } }.work.bfinal = true := by decide

/-- Symbol 284 with its extra field there, and at the end of the stream. -/
theorem witness_LengthSymbols :
    (Instr.len284, (5, 227)) ∈ lengthInstrs.zip lengthTable ∧
    (inSymbols [0xFF]).params.wf = true ∧ Ranges (inSymbols [0xFF]) ∧ 5 ≤ remainingBits (inSymbols [0xFF]) ∧
    Ranges { inSymbols [0xFF] with brPos := 8 } ∧ remainingBits { inSymbols [0xFF] with brPos := 8 } < 5 :=
  ⟨by decide, by decide, ranges_of (by decide), by decide, ranges_of (by decide), by decide⟩

/-- Distance 2 with two bytes of output: the largest that is legal. -/
theorem witness_DistanceSymbols :
    let s := { inSymbols [0] with work := { Work.idle with level := .dsym, fixedDist := true, length := 62 } }
    (Instr.dist1, (0, 2)) ∈ distanceInstrs.zip distanceTable ∧ s.params.wf = true ∧ Ranges s ∧
      0 ≤ remainingBits s ∧ 2 + integerSum s s.brPos.toNat 0 ≤ s.olen.toNat ∧
      s.olen.toNat + s.work.length ≤ s.params.obufCap :=
  ⟨by decide, by decide, ranges_of (by decide), by decide, by decide, by decide⟩

/-- No extra bit left; distance 3 of two bytes; and one byte too many. -/
theorem witness_DistanceFailures :
    (let s := { inSymbols [0] with brPos := 8 }
     (Instr.dist4, (1, 5)) ∈ distanceInstrs.zip distanceTable ∧ s.params.wf = true ∧ Ranges s ∧
      remainingBits s < 1) ∧
    (let s := inSymbols [0]
     (Instr.dist2, (0, 3)) ∈ distanceInstrs.zip distanceTable ∧ Ranges s ∧
      s.olen.toNat < 3 + integerSum s s.brPos.toNat 0) ∧
    (let s := { inSymbols [0] with work := { Work.idle with level := .dsym, fixedDist := true, length := 63 } }
     Ranges s ∧ 2 + integerSum s s.brPos.toNat 0 ≤ s.olen.toNat ∧
      s.params.obufCap < s.olen.toNat + s.work.length) :=
  ⟨⟨by decide, by decide, ranges_of (by decide), by decide⟩, ⟨by decide, ranges_of (by decide), by decide⟩,
    ranges_of (by decide), by decide, by decide⟩

theorem witness_UnreachableSymbols :
    (Inv literalNext ∧ ∃ t, fetch literalNext = some (.ok (.lit 97) t)) ∧
    (let s := inLengths [0]
     s.params.wf = true ∧ Ranges s ∧ 7 ≤ remainingBits s ∧
      s.work.produced + (11 + integerSum s s.brPos.toNat 7) < s.work.hlit + s.work.hdist) :=
  ⟨⟨inv_literalNext, _, rfl⟩, by decide, ranges_of (by decide), by decide, by decide +kernel⟩

theorem witness_ObSetlenCommand : base.status ≠ .fault ∧ base.params.obufCap < (65#32).toNat ∧
    (64#32).toNat ≤ base.params.obufCap := by decide

/-- DF9, DF10 and a `RBUF` too small. -/
theorem witness_DefilterChecks :
    ((rows [0, 0, 0, 0, 0, 0] 3 3 1 8).status ≠ .fault ∧ (rows [0, 0, 0, 0, 0, 0] 3 3 1 8).olen.toNat < 3 * 3 ∧
      (rows [] 0 3 1 8).arg0.toNat = 0 ∧ (rows [] 3 3 0 8).arg2.toNat % 256 = 0) ∧
    (let s := { rows [0, 0, 0, 0, 0, 0] 3 2 1 8 with params := ⟨64, 64, 3, false⟩ }
     s.arg0.toNat ≠ 0 ∧ s.arg2.toNat % 256 ≠ 0 ∧ s.arg1.toNat * s.arg0.toNat ≤ s.olen.toNat ∧
      s.params.rbufCap < s.arg1.toNat * (s.arg0.toNat - 1)) := by decide

/-- DF5: a Paeth row and an Average row. -/
theorem witness_DefilterReconstructs :
    let s := rows [0x04, 0x01, 0x02, 0x03, 0x04, 0x03, 0x10, 0x20, 0x30, 0x40] 5 2 1 8
    s.status ≠ .fault ∧ s.arg0.toNat ≠ 0 ∧ s.arg2.toNat % 256 ≠ 0 ∧ s.arg1.toNat * s.arg0.toNat ≤ s.olen.toNat ∧
      s.arg1.toNat * (s.arg0.toNat - 1) ≤ s.params.rbufCap ∧
      ∀ r, r < s.arg1.toNat → (s.obuf.get (r * s.arg0.toNat)).toNat ≤ 4 := by decide

/-- DF8. -/
theorem witness_IllegalFilterTag :
    let s := rows [0x00, 0x01, 0x02, 0x05, 0x03, 0x04] 3 2 1 8
    s.status ≠ .fault ∧ s.arg0.toNat ≠ 0 ∧ s.arg2.toNat % 256 ≠ 0 ∧ s.arg1.toNat * s.arg0.toNat ≤ s.olen.toNat ∧
      s.arg1.toNat * (s.arg0.toNat - 1) ≤ s.params.rbufCap ∧
      ∃ r, r < s.arg1.toNat ∧ 4 < (s.obuf.get (r * s.arg0.toNat)).toNat :=
  ⟨by decide, by decide, by decide, by decide, by decide, 1, by decide, by decide⟩

/-- One row of two raw bytes 7, with tag 1: the filtered bytes are 7 and 0. -/
theorem witness_ForwardFilterRoundTrip :
    let s := rows [1, 7, 0] 3 1 1 8
    let raw : Nat → Nat → Byte := fun _ _ => 7
    s.status ≠ .fault ∧ s.arg0.toNat ≠ 0 ∧ s.arg2.toNat % 256 ≠ 0 ∧ s.arg1.toNat * s.arg0.toNat ≤ s.olen.toNat ∧
    s.arg1.toNat * (s.arg0.toNat - 1) ≤ s.params.rbufCap ∧
    ∀ r, r < 1 → (1 ≤ 4 ∧ s.obuf.get (r * 3) = BitVec.ofNat 8 1 ∧ ∀ i, i < 2 → s.obuf.get (r * 3 + 1 + i) =
      raw r i - BitVec.ofNat 8 (predictorOf 1 (if 1 ≤ i then (raw r (i - 1)).toNat else 0)
        (if 1 ≤ r then (raw (r - 1) i).toNat else 0)
        (if 1 ≤ r ∧ 1 ≤ i then (raw (r - 1) (i - 1)).toNat else 0))) := by decide

/-- A row that is not the last, and the last. -/
theorem witness_FilterRows :
    (Instr.ftPaeth, predPaeth) ∈ filterInstrs ∧
    (let s := { inRow [0, 0, 0, 0] [7, 7, 7, 7] with work := { Work.idle with level := .ftag } }
     1 ≤ channels s ∧ s.work.row + 1 < nRows s ∧ 3 < rowWidth s) ∧
    nRows (inRow [0, 0, 0, 0] [7, 7, 7, 7]) ≤ (inRow [0, 0, 0, 0] [7, 7, 7, 7]).work.row + 1 :=
  ⟨.tail _ (.tail _ (.tail _ (.tail _ (.head _)))), by decide, by decide⟩

theorem witness_EncodeDecode : (Instr.dInvalid true).wf = true ∧ 31 < 2 ^ Format.dsym.bits ∧
    2 ^ Format.blkhdr.bits ≤ 8 := by decide

/-- A fetched literal; a failed fetch; a block at rest; and writes to `CMD`, taken and ignored. -/
theorem witness_StepRunsInstruction :
    (∃ t, fetch literalNext = some (.ok (.lit 97) t)) ∧
    (∃ t, fetch { headerNext with brPos := 8 } = some (.fail .insufficientBits t)) ∧
    (base.atHost ∧ base.pending = []) ∧
    (let s := { base with pending := [.writeReg 0 0x10] }
     s.atHost ∧ s.pending = .writeReg 0 0x10 :: [] ∧ s.status ≠ .fault) ∧
    (let s := { faulted with pending := [.writeReg 0 0x10] }
     s.status = .fault ∧ decodeCommand ((0x10 : Word).setWidth 8) ≠ .reset ∧
      decodeCommand ((0x10 : Word).setWidth 8) ≠ .clr) :=
  ⟨⟨_, rfl⟩, ⟨_, rfl⟩, by decide, by decide,
    by decide⟩

theorem witness_RegisterMap :
    (let s := { base with pending := [.writeReg 6 5] }
     s.atHost ∧ 6 ≠ 0 ∧ s.pending = .writeReg 6 5 :: []) ∧
    (let s := { base with pending := [.readReg 15] }
     s.atHost ∧ s.pending = .readReg 15 :: []) := by decide

theorem witness_HostMemoryAccess :
    (let s := { base with pending := [.writeCell .lens 320 5] }
     s.atHost ∧ s.pending = .writeCell .lens 320 5 :: [] ∧ Space.lens.size s.params ≤ 320) ∧
    (let s := { base with pending := [.writeCell .lens 319 5] }
     s.atHost ∧ s.pending = .writeCell .lens 319 5 :: [] ∧ 319 < Space.lens.size s.params) ∧
    (let s := { base with pending := [.readCell .rbuf 64] }
     s.atHost ∧ s.pending = .readCell .rbuf 64 :: [] ∧ Space.rbuf.size s.params ≤ 64) ∧
    (let s := { base with pending := [.readCell .rbuf 63] }
     s.atHost ∧ s.pending = .readCell .rbuf 63 :: [] ∧ 63 < Space.rbuf.size s.params) := by decide

theorem witness_StepKeepsInvariant : Inv literalNext ∧ ∃ t, step literalNext = .next t :=
  ⟨inv_literalNext, _, rfl⟩

/-- The `IEND` chunk (V3.4), and an empty file. -/
theorem witness_ContainerParses :
    (∀ c ∈ [Chunk.mk 0 tagIEND [] 0xAE426082],
      c.tag.length = 4 ∧ c.payload.length = c.length ∧ c.length < 2 ^ 32 ∧ chunkCrcOk c = true) ∧
    ([] : List Byte).take 8 ≠ pngSignature := by decide +kernel

end Sys2Proof.Tests
end

/-! ### The step, by what the fetch answers -/

namespace Sys2Proof.Machine

/-- While a command runs, a step is one turn of its stream: `INFLATE` and `DEFILTER` take the same turns inside one
step that the machine takes one by one (R3, R381). -/
theorem step_of_fetch {s : State} {r : Res Instr} (h : fetch s = some r) : step s = streamTurn r := by
  cases r with
  | ok i t =>
    obtain ⟨hformat, hrunning, -⟩ := fetch_ok h
    simp only [step, h, streamTurn]
    exact exec_eq_streamExec (by rw [hformat]; exact hrunning) t
  | fail k t => simp only [step, h, streamTurn]

/-- With no command running, a step is the host's turn. -/
theorem step_atHost {s : State} (h : s.atHost) : step s = hostTurn s := by
  simp only [step, fetch_none.2 h]

/-! ### Failing inside `INFLATE` (R421) -/

/-- A free value stays below its upper bound (R46). -/
theorem freeBetween_le {lo hi : Nat} (h : lo ≤ hi) (tag : Nat) : (freeBetween lo hi tag).toNat ≤ hi := by
  have hmod : (Config.freeReg 32 tag).toNat % (hi - lo + 1) < hi - lo + 1 := Nat.mod_lt _ (Nat.succ_pos _)
  rw [freeBetween, BitVec.toNat_ofNat]
  exact Nat.le_trans (Nat.mod_le _ _) (by omega)

/-- A failure inside `INFLATE` leaves what R421 says it leaves, in every state. -/
theorem raiseInflate_afterInflateFault (k : Failure) (s : State) : AfterInflateFault k s (raiseInflate k s) where
  frame := rfl
  cursor := freeBetween_le (Nat.zero_le _) _
  output := freeBetween_le (Nat.zero_le _) _

/-- A failure inside `INFLATE` ends the command. -/
theorem raiseInflate_atHost (k : Failure) (s : State) : (raiseInflate k s).atHost := rfl

/-! ### A write to `CMD` (R380, R422) -/

theorem decodeCommand_eq_reset {op : BitVec 8} : decodeCommand op = .reset ↔ op = 0x01 := by
  revert op
  decide

theorem decodeCommand_eq_clr {op : BitVec 8} : decodeCommand op = .clr ↔ op = 0x02 := by
  revert op
  decide

/-- The opcode is held when the block is not in `FAULT` or the command is one that `FAULT` accepts. -/
theorem latchCommand_accepted {op : BitVec 8} {s : State}
    (h : s.status ≠ .fault ∨ decodeCommand op = .reset ∨ decodeCommand op = .clr) :
    latchCommand op s = { s with cmd := op } := by
  rw [decodeCommand_eq_reset, decodeCommand_eq_clr] at h
  exact if_neg (by tauto)

/-- In `FAULT` the opcode of any other command is not held. -/
theorem latchCommand_ignored {op : BitVec 8} {s : State} (hs : s.status = .fault)
    (hr : decodeCommand op ≠ .reset) (hc : decodeCommand op ≠ .clr) : latchCommand op s = s :=
  if_pos ⟨hs, mt decodeCommand_eq_reset.2 hr, mt decodeCommand_eq_clr.2 hc⟩

/-- A command body is not run in `FAULT`. -/
theorem command_fault {s : State} (h : s.status = .fault) (body : State → State) : command s body = .next s := by
  rw [command, if_pos h]

/-- In `FAULT` every command but `RESET` and `CLR` does nothing (R380). -/
theorem exec_ignored {i : Instr} {s : State} (hs : s.status = .fault) (hi : Instr.ignoredInFault i = true) :
    exec i s = .next s := by
  cases i with
  | nop | brInit | brRead | brReadRev | brRemaining | htBuild | htDecode | obSetlen | crcCompute | crcCheck
  | cmdIllegal =>
    simp only [exec, execNop, execBrInit, execBrRead, execBrReadRev, execBrRemaining, execHtBuild, execHtDecode,
      execObSetlen, execCrcCompute, execCrcCheck, execCmdIllegal, command_fault hs]
  | inflate => exact if_pos hs
  | defilter => exact if_pos hs
  | _ => exact absurd hi Bool.false_ne_true

/-- The step of a write to `CMD`: the command decoded from its low eight bits. -/
theorem step_writeCmd {s : State} {v : Word} {rest : List HostAccess} (h : s.atHost)
    (hp : s.pending = .writeReg 0 v :: rest) :
    step s = exec (decodeCommand (v.setWidth 8)) (latchCommand (v.setWidth 8) { s with pending := rest }) := by
  simp only [step_atHost h, hostTurn, hp]

/-- Settles O55: a step by what its fetch answers, and the host's turn by its next access. -/
theorem stepRunsInstruction : Obligations.StepRunsInstruction := by
  intro s
  refine ⟨fun i t h => ?_, fun k t h => ?_, fun h hp => ?_, fun v rest h hp => ⟨fun hi => ?_, fun hs hr hc => ?_⟩⟩
  · simp only [step, h]
  · exact ⟨_, step_of_fetch h, raiseInflate_afterInflateFault k t⟩
  · rw [step_atHost h, hostTurn, hp]
  · rw [step_writeCmd h hp, latchCommand_accepted (s := { s with pending := rest }) hi]
  · rw [step_writeCmd h hp, latchCommand_ignored (s := { s with pending := rest }) hs hr hc]
    exact exec_ignored hs (by simp [Instr.ignoredInFault, decodeCommand_format, hr, hc])

/-! ### The cursor only moves forward (R24, R258)

Every instruction of an `INFLATE` stream consumes at least one bit, its own, or ends the command. This is what bounds
the stream, and it needs no more of the state than that the cursor stands in its stream. -/

/-- The cursor stands inside a stream whose bits a 32-bit cursor can number (R46). -/
structure CursorOk (s : State) : Prop where
  length : 8 * s.brLen.toNat < 2 ^ 32
  cursor : s.brPos.toNat ≤ 8 * s.brLen.toNat

/-- From `s` to `t` the cursor has moved over `n` bits or more of the same stream, and no row loop was entered. -/
structure Forward (n : Nat) (s t : State) : Prop where
  brLen : t.brLen = s.brLen
  cursor : CursorOk s → s.brPos.toNat + n ≤ t.brPos.toNat ∧ CursorOk t
  level : s.work.level ≠ .ftag → t.work.level ≠ .ftag

/-- If the operation that began in `s` does not raise, it has moved the cursor over `n` bits or more. -/
def Onward {α : Type} (n : Nat) (s : State) (r : Res α) : Prop := ∀ a t, r = .ok a t → Forward n s t

namespace Forward

variable {m n : Nat} {s t u : State}

/-- An update that leaves the reader alone, and the level unless it sets one of `INFLATE`'s. -/
theorem of_sameCursor (hl : t.brLen = s.brLen) (hp : t.brPos = s.brPos)
    (hv : s.work.level ≠ .ftag → t.work.level ≠ .ftag) : Forward 0 s t :=
  ⟨hl, fun h => ⟨by rw [hp]; exact Nat.le_refl _, by rw [hl]; exact h.length, by rw [hl, hp]; exact h.cursor⟩, hv⟩

theorem refl (s : State) : Forward 0 s s := of_sameCursor rfl rfl id

theorem trans (h : Forward m s t) (h' : Forward n t u) : Forward m s u where
  brLen := h'.brLen.trans h.brLen
  cursor hc := by
    obtain ⟨hst, ht⟩ := h.cursor hc
    obtain ⟨htu, hu⟩ := h'.cursor ht
    exact ⟨by omega, hu⟩
  level := h'.level ∘ h.level

theorem weaken (h : Forward n s t) (hmn : m ≤ n) : Forward m s t :=
  ⟨h.brLen, fun hc => ⟨by have := (h.cursor hc).1; omega, (h.cursor hc).2⟩, h.level⟩

end Forward

/-- Consuming bits that are there. -/
theorem advance_forward {n : Nat} {s : State} (h : n ≤ remainingBits s) : Forward n s (advance n s) where
  brLen := rfl
  cursor hc := by
    have hpos := advance_brPos_toNat hc.length h hc.cursor
    have hin := hc.cursor
    rw [remainingBits] at h
    exact ⟨by omega, hc.length, by rw [hpos, advance_brLen]; omega⟩
  level := id

theorem Forward.remainingBits_lt {n : Nat} {s t : State} (h : Forward n s t) (hc : CursorOk s) (hn : 0 < n) :
    remainingBits t < remainingBits s := by
  obtain ⟨hpos, ht⟩ := h.cursor hc
  have hin := ht.cursor
  rw [h.brLen] at hin
  rw [remainingBits, remainingBits, h.brLen]
  omega

namespace Onward

variable {α β : Type} {m n : Nat} {s t : State} {r : Res α}

theorem ok {a : α} (h : Forward n s t) : Onward n s (.ok a t) := by
  intro _ _ he
  cases he
  exact h

theorem fail {k : Failure} : Onward n s (.fail k t : Res α) := fun _ _ he => by cases he

/-- Two operations in sequence; the bits counted are those of the first. -/
theorem andThen {k : Nat} {f : α → State → Res β} (h : Onward m s r) (hf : ∀ a t, Onward 0 t (f a t))
    (hk : k ≤ m := by omega) : Onward k s (r.andThen f) := by
  intro b u he
  obtain ⟨a, t, hr, hft⟩ := Res.andThen_eq_ok.1 he
  exact ((h a t hr).weaken hk).trans (hf a t b u hft)

theorem after (h : Forward m s t) (hr : Onward n t r) : Onward m s r := fun a u he => h.trans (hr a u he)

end Onward

/-! #### The operations of a stream -/

theorem readCode_onward (n : Nat) (s : State) : Onward n s (readCode n s) := by
  rcases readCode_cases n s with ⟨hn, h⟩ | ⟨-, h⟩ <;> rw [h]
  · exact .ok (advance_forward hn)
  · exact .fail

theorem readReversed_onward (n : Nat) (s : State) : Onward n s (readReversed n s) := by
  rcases readReversed_cases n s with ⟨hn, h⟩ | ⟨-, h⟩ <;> rw [h]
  · exact .ok (advance_forward hn)
  · exact .fail

/-- Every turn of the loop of `decode_one` consumes a bit, and a symbol takes one turn or more. -/
theorem decodeLoop_onward (t : Table) (n len acc : Nat) (s : State) : Onward 1 s (decodeLoop t n len acc s) := by
  induction n generalizing len acc s with
  | zero => exact .fail
  | succ n ih =>
    unfold decodeLoop
    split
    · exact .fail
    · have hbit : Forward 1 s (advance 1 s) := advance_forward (by omega)
      dsimp only
      split
      · exact .ok hbit
      · exact .after hbit (ih _ _ _)

theorem decodeOne_onward (slot : Nat) (s : State) : Onward 1 s (decodeOne slot s) := by
  unfold decodeOne
  split
  · exact .fail
  · exact decodeLoop_onward _ _ _ _ s

theorem append_onward (b : Byte) (s : State) : Onward 0 s (append b s) := by
  rcases append_cases b s with ⟨-, h⟩ | ⟨-, h⟩ <;> rw [h]
  · exact .fail
  · exact .ok (.of_sameCursor rfl rfl id)

theorem copy_onward (len d : Nat) (s : State) : Onward 0 s (copy len d s) := by
  intro a t h
  have hstate := copy_state len d s
  rw [h, Res.state_ok] at hstate
  rw [hstate]
  exact .of_sameCursor rfl rfl id

theorem setSlot_forward (k : Nat) (t : Option Table) (s : State) : Forward 0 s (setSlot k t s) := by
  rw [setSlot_state]
  exact .of_sameCursor rfl rfl id

theorem build_onward (k : Nat) (lens : List Nat) (s : State) : Onward 0 s (build k lens s) := by
  rcases build_cases k lens s with ⟨t, -, h⟩ | ⟨-, h⟩ <;> rw [h]
  · exact .ok (setSlot_forward ..)
  · exact .fail

/-! #### The zlib header and the block headers -/

theorem zlibHeader_onward (s : State) : Onward 1 s (zlibHeader s) := by
  refine (readReversed_onward 8 s).andThen fun cmf s => (readReversed_onward 8 s).andThen fun flg s => ?_
  dsimp only
  split
  · exact .fail
  · exact .ok (.of_sameCursor rfl rfl id)

theorem setFinal_forward (f : Bool) (s : State) : Forward 0 s (setFinal f s) := .of_sameCursor rfl rfl id

theorem enterBlocks_forward (s : State) : Forward 0 s (enterBlocks s) := .of_sameCursor rfl rfl fun _ => nofun

theorem enterSymbols_forward (f : Bool) (s : State) : Forward 0 s (enterSymbols f s) :=
  .of_sameCursor rfl rfl fun _ => nofun

theorem endBlock_forward (s : State) : Forward 0 s (endBlock s) := by
  rcases endBlock_cases s with ⟨-, h⟩ | ⟨-, h⟩ <;> rw [h] <;> exact .of_sameCursor rfl rfl fun _ => nofun

theorem checkComplement_onward (len nlen : Nat) (s : State) : Onward 0 s (checkComplement len nlen s) := by
  rcases checkComplement_cases len nlen s with ⟨-, h⟩ | ⟨-, -, h⟩ | ⟨-, -, h⟩ <;> rw [h]
  · exact .ok (.refl s)
  · exact .fail
  · exact .ok (.of_sameCursor rfl rfl id)

theorem copyStored_onward (n : Nat) (s : State) : Onward 0 s (copyStored n s) := by
  induction n generalizing s with
  | zero => exact .ok (.refl s)
  | succ n ih =>
    exact (readReversed_onward 8 s).andThen fun _ s => (append_onward _ s).andThen fun _ s => ih s

theorem storedBlock_onward (s : State) : Onward 0 s (storedBlock s) :=
  (readCode_onward _ s).andThen fun _ s => (readReversed_onward 16 s).andThen fun _ s =>
    (readReversed_onward 16 s).andThen fun _ s => (checkComplement_onward _ _ s).andThen fun _ s =>
    (copyStored_onward _ s).andThen fun _ s => .ok (endBlock_forward s)

theorem readClLens_onward (order cl : List Nat) (s : State) : Onward 0 s (readClLens order cl s) := by
  induction order generalizing cl s with
  | nil => exact .ok (.refl s)
  | cons o rest ih => exact (readReversed_onward 3 s).andThen fun _ s => ih _ s

theorem dynamicHeader_onward (s : State) : Onward 0 s (dynamicHeader s) :=
  (readReversed_onward 5 s).andThen fun _ s => (readReversed_onward 5 s).andThen fun _ s =>
    (readReversed_onward 4 s).andThen fun _ s => (readClLens_onward _ _ s).andThen fun _ s =>
    (build_onward 0 _ s).andThen fun _ _ => .ok (.of_sameCursor rfl rfl fun _ => nofun)

/-! #### Code lengths -/

theorem fillLens_forward (k : Nat) (v : Nibble) (r : Nat) (s : State) : Forward 0 s (fillLens k v r s) := by
  rw [fillLens_state]
  exact .of_sameCursor rfl rfl id

theorem afterLengths_onward (s : State) : Onward 0 s (afterLengths s) := by
  unfold afterLengths
  split
  · exact .ok (.refl s)
  · exact (build_onward 1 _ s).andThen fun _ _ => (build_onward 2 _ _).andThen fun _ s =>
      .ok (enterSymbols_forward false s)

theorem emit_onward (v : Nibble) (r : Nat) (s : State) : Onward 0 s (emit v r s) := by
  unfold emit
  split
  · exact .fail
  · refine .after ?_ (afterLengths_onward _)
    exact (fillLens_forward s.work.produced v r s).trans (.of_sameCursor rfl rfl id)

theorem zeroRepeat_onward (extra base : Nat) (s : State) : Onward 0 s (zeroRepeat extra base s) :=
  (readReversed_onward extra s).andThen fun _ s => emit_onward 0 _ s

/-! #### The instructions of an `INFLATE` stream -/

/-- An outcome of an instruction of `INFLATE`: the command is over, or it runs on with the cursor `n` bits further
at least. -/
def Resumes (n : Nat) (s : State) (o : Out) : Prop := ∃ t, o = .next t ∧ (t.atHost ∨ Forward n s t)

theorem settleInflate_resumes {n : Nat} {s : State} {r : Res Unit} (h : Onward n s r) :
    Resumes n s (settleInflate r) := by
  cases r with
  | ok a t => exact ⟨t, rfl, .inr (h a t rfl)⟩
  | fail k t => exact ⟨raiseInflate k t, rfl, .inl (raiseInflate_atHost k t)⟩

theorem lengthSymbol_resumes (extra base : Nat) (s : State) : Resumes 0 s (lengthSymbol extra base s) :=
  settleInflate_resumes <| (readReversed_onward extra s).andThen fun _ _ =>
    .ok (.of_sameCursor rfl rfl fun _ => nofun)

theorem distanceSymbol_resumes (extra base : Nat) (s : State) : Resumes 0 s (distanceSymbol extra base s) :=
  settleInflate_resumes <| (readReversed_onward extra s).andThen fun _ s => (copy_onward _ _ s).andThen fun _ _ =>
    .ok (.of_sameCursor rfl rfl fun _ => nofun)

theorem execBlkFixed_resumes (f : Bool) (s : State) : Resumes 0 s (execBlkFixed f s) :=
  settleInflate_resumes <| .after (n := 0) (setFinal_forward f s) <| (build_onward 1 fixedLens _).andThen fun _ s =>
    .ok (enterSymbols_forward true s)

theorem execClRep_resumes (s : State) : Resumes 0 s (execClRep s) := by
  refine settleInflate_resumes ?_
  split
  · exact .fail
  · exact (readReversed_onward 2 s).andThen fun _ s => emit_onward _ _ s

/-- No instruction of `INFLATE` moves the cursor back. -/
theorem streamExec_resumes {i : Instr} (hc : i.format ≠ .cmd) (ht : i.format ≠ .ftag) (s : State) :
    Resumes 0 s (streamExec i s) := by
  cases i with
  | blkStored f => exact settleInflate_resumes (.after (setFinal_forward f s) (storedBlock_onward _))
  | blkFixed f => exact execBlkFixed_resumes f s
  | blkDynamic f => exact settleInflate_resumes (.after (setFinal_forward f s) (dynamicHeader_onward _))
  | lit v => exact settleInflate_resumes (append_onward v s)
  | eob => exact settleInflate_resumes (.ok (a := ()) (endBlock_forward s))
  | blkReserved | llInvalid286 | llInvalid287 | llUnreachable | dInvalid => exact settleInflate_resumes .fail
  | clLen v => exact settleInflate_resumes (emit_onward v 1 s)
  | clRep => exact execClRep_resumes s
  | clZrep3 | clZrep11 | clUnreachable => exact settleInflate_resumes (zeroRepeat_onward _ _ s)
  | len257 | len258 | len259 | len260 | len261 | len262 | len263 | len264 | len265 | len266 | len267 | len268
  | len269 | len270 | len271 | len272 | len273 | len274 | len275 | len276 | len277 | len278 | len279 | len280
  | len281 | len282 | len283 | len284 | len285 =>
    dsimp only [streamExec]
    exact lengthSymbol_resumes _ _ s
  | dist0 | dist1 | dist2 | dist3 | dist4 | dist5 | dist6 | dist7 | dist8 | dist9 | dist10 | dist11 | dist12
  | dist13 | dist14 | dist15 | dist16 | dist17 | dist18 | dist19 | dist20 | dist21 | dist22 | dist23 | dist24
  | dist25 | dist26 | dist27 | dist28 | dist29 =>
    dsimp only [streamExec]
    exact distanceSymbol_resumes _ _ s
  | ftNone | ftSub | ftUp | ftAverage | ftPaeth | ftIllegal => exact absurd rfl ht
  | _ => exact absurd rfl hc

/-- Fetching an instruction of `INFLATE` consumes one bit or more. -/
theorem fetch_onward {s : State} {r : Res Instr} (h : fetch s = some r) (hv : s.work.level ≠ .ftag) :
    Onward 1 s r := by
  unfold fetch at h
  split at h <;> cases h
  · exact (readCode_onward 1 s).andThen fun _ s => (readReversed_onward 2 s).andThen fun _ s =>
      .ok (.refl s)
  · exact (decodeOne_onward 1 s).andThen fun _ s => .ok (.refl s)
  · unfold fetchDistance
    split
    · exact (readCode_onward 5 s).andThen fun _ s => .ok (.refl s)
    · exact (decodeOne_onward 2 s).andThen fun _ s => .ok (.refl s)
  · exact (decodeOne_onward 0 s).andThen fun _ s => .ok (.refl s)
  · exact absurd ‹_› hv

/-- A turn of `INFLATE` consumes one bit or more, or ends the command (R258). -/
theorem streamTurn_resumes {s : State} {r : Res Instr} (h : fetch s = some r) (hv : s.work.level ≠ .ftag) :
    Resumes 1 s (streamTurn r) := by
  cases r with
  | ok i t =>
    obtain ⟨hformat, hrunning, -⟩ := fetch_ok h
    obtain ⟨u, hu, hover | hon⟩ := streamExec_resumes (hformat ▸ hrunning) (hformat ▸ hv) t
    · exact ⟨u, hu, .inl hover⟩
    · exact ⟨u, hu, .inr ((fetch_onward h hv i t rfl).trans hon)⟩
  | fail k t => exact ⟨raiseInflate k t, rfl, .inl (raiseInflate_atHost k t)⟩

/-! #### Whole streams -/

/-- An `INFLATE` with more turns allowed than bits left runs to its end: the bound of `runStream` is never reached
(R258). -/
theorem runStream_atHost {n : Nat} {s : State} (hv : s.work.level ≠ .ftag) (hc : CursorOk s)
    (hn : remainingBits s < n) : ∃ t, runStream n s = .next t ∧ t.atHost := by
  induction n generalizing s with
  | zero => exact absurd hn (Nat.not_lt_zero _)
  | succ n ih =>
    cases hf : fetch s with
    | none => exact ⟨s, runStream_over _ (fetch_none.1 hf), fetch_none.1 hf⟩
    | some r =>
      obtain ⟨u, hu, hover | hon⟩ := streamTurn_resumes hf hv
      · exact ⟨u, by simp only [runStream, hf, hu, runStream_over n hover], hover⟩
      · have hlt := hon.remainingBits_lt hc Nat.one_pos
        obtain ⟨t, ht, hover⟩ := ih (hon.level hv) (hon.cursor hc).2 (by omega)
        exact ⟨t, by simp only [runStream, hf, hu, ht], hover⟩

/-- A run inside one command is as many steps of the machine as it takes turns. -/
theorem runStream_eq_stepN (n : Nat) (s : State) : ∃ k, k ≤ n ∧ runStream n s = stepN k s := by
  induction n generalizing s with
  | zero => exact ⟨0, Nat.le_refl 0, rfl⟩
  | succ n ih =>
    cases hf : fetch s with
    | none => exact ⟨0, Nat.zero_le _, by simp only [runStream, hf, stepN]⟩
    | some r =>
      obtain ⟨u, hu⟩ := streamTurn_next r
      obtain ⟨k, hk, hrun⟩ := ih u
      exact ⟨k + 1, Nat.succ_le_succ hk, by simp only [runStream, hf, stepN, step_of_fetch hf, hu, hrun]⟩

/-- `INFLATE` on a readable zlib header is the run of its blocks. -/
theorem exec_inflate_of_header {s s' : State} (hs : s.status ≠ .fault) (ha : s.arg0.toNat ≤ s.params.ibufCap)
    (h : zlibHeader (enterInflate s) = .ok () s') :
    exec .inflate s = runStream (8 * s.arg0.toNat) (enterBlocks s') := by
  simp only [exec, execInflate, if_neg hs, if_neg (Nat.not_lt.2 ha), h]

/-- `INFLATE` begins with the cursor at the first bit of a stream that `IBUF` can hold (R7, R220). -/
theorem enterInflate_cursorOk {s : State} (hp : s.params.wf = true) (ha : s.arg0.toNat ≤ s.params.ibufCap) :
    CursorOk (enterInflate s) where
  length := by
    simp only [Params.wf, decide_eq_true_eq] at hp
    rw [enterInflate_brLen]
    omega
  cursor := Nat.zero_le _

/-- Settles O29: the run of the blocks ends, since the two header bytes leave fewer bits than turns allowed, and its
turns are steps. -/
theorem inflateIsItsStream : Obligations.InflateIsItsStream := by
  intro s s' hinv _ hs ha hz
  have hc := enterInflate_cursorOk hinv.params ha
  have hblocks := (zlibHeader_onward _ _ _ hz).trans (enterBlocks_forward s')
  have hbits := hblocks.remainingBits_lt hc (by omega)
  obtain ⟨t, ht, hover⟩ := runStream_atHost (hblocks.level nofun) (hblocks.cursor hc).2 hbits
  obtain ⟨n, -, hn⟩ := runStream_eq_stepN (8 * s.arg0.toNat) (enterBlocks s')
  exact ⟨n, t, by rw [exec_inflate_of_header hs ha hz]; exact ht, hn.symm.trans ht, hover⟩

end Sys2Proof.Machine

/-! ## The invariant (R46)

Every part of a command keeps `Sound`, whether it raises or not. Inside `INFLATE` a state is `Live` as well, and its
output grows; at the host's turn `STATUS` and `ERR` agree and no working value is left. The invariant `Inv` is put
together from these at the end of each instruction. -/

namespace Sys2Proof.Machine

/-- The invariant but for what it says of `STATUS`, `ERR` and the working values. -/
structure Sound (s : State) : Prop where
  params : s.params.wf = true
  brLen : s.brLen.toNat ≤ s.params.ibufCap
  brPos : s.brPos.toNat ≤ 8 * s.brLen.toNat
  olen : s.olen.toNat ≤ s.params.obufCap
  rlen : s.rlen.toNat ≤ s.params.rbufCap
  memories : MemoriesOk s
  slots : SlotsOk s

section
variable {s t u : State}

theorem Inv.sound (h : Inv s) : Sound s :=
  { h.ranges with params := h.params, memories := h.memories, slots := h.slots }

theorem Sound.inv (h : Sound s) (he : s.err ≠ 0 ↔ s.status = .fault) (hl : LevelOk s) : Inv s where
  params := h.params
  ranges := { h with err := he }
  memories := h.memories
  slots := h.slots
  level := hl

/-- The capacities, that of `IBUF` in bits, are numbers a 32-bit register can hold (R7). -/
theorem params_bounds {p : Params} (h : p.wf = true) : 8 * p.ibufCap < 2 ^ 32 ∧ p.obufCap < 2 ^ 32 := by
  simp only [Params.wf, decide_eq_true_eq] at h
  omega

theorem Sound.cursorOk (h : Sound s) : CursorOk s where
  length := by
    have hcap := (params_bounds h.params).1
    have hlen := h.brLen
    omega
  cursor := h.brPos

/-! ### Levels -/

theorem levelOk_atHost (hw : s.work = Work.idle) (hb : s.status ≠ .busy) : LevelOk s := by
  rw [LevelOk, hw]
  exact ⟨rfl, hb⟩

theorem Inv.level_cmd (h : Inv s) (ha : s.atHost) : s.work = Work.idle ∧ s.status ≠ .busy := by
  have hl := h.level
  rwa [LevelOk, ha] at hl

theorem Inv.work_idle (h : Inv s) (ha : s.atHost) : s.work = Work.idle := (h.level_cmd ha).1

theorem Inv.not_busy (h : Inv s) (ha : s.atHost) : s.status ≠ .busy := (h.level_cmd ha).2

/-- The working values of a running `DEFILTER` (R360, R363). -/
theorem Inv.level_ftag (h : Inv s) (hv : s.work.level = .ftag) :
    s.status = .busy ∧ 1 ≤ rowBytes s ∧ 1 ≤ channels s ∧ s.work.row < nRows s ∧
      nRows s * rowBytes s ≤ s.olen.toNat ∧ nRows s * rowWidth s ≤ s.params.rbufCap := by
  have hl := h.level
  rwa [LevelOk, hv] at hl

theorem Inv.err_zero (h : Inv s) (hs : s.status ≠ .fault) : s.err = 0 := by
  by_contra he
  exact hs (h.ranges.err.1 he)

/-! ### Ends of commands -/

theorem Failure.code_ne_zero (k : Failure) : k.code ≠ 0 := by cases k <;> decide

/-- A command that completes with no working value left. -/
theorem Sound.inv_complete (h : Sound s) (hw : s.work = Work.idle) : Inv (complete s) where
  params := h.params
  ranges := { h with err := by simp }
  memories := { h.memories with }
  slots := { h.slots with }
  level := levelOk_atHost hw nofun

/-- A command that raises with no working value left. -/
theorem Sound.inv_raise (h : Sound s) (hw : s.work = Work.idle) (k : Failure) : Inv (raise k s) where
  params := h.params
  ranges := { h with err := iff_of_true k.code_ne_zero rfl }
  memories := { h.memories with }
  slots := { h.slots with }
  level := levelOk_atHost hw nofun

/-! ### What updates of the state keep -/

theorem Sound.setWork (h : Sound s) (w : Work) : Sound { s with work := w } :=
  { h with memories := { h.memories with }, slots := { h.slots with } }

theorem Sound.setRes0 (h : Sound s) (v : Word) (ctr : Nat) : Sound { s with res0 := v, freeCtr := ctr } :=
  { h with memories := { h.memories with }, slots := { h.slots with } }

theorem Sound.setFlags (h : Sound s) (z : BitVec 16) (f : BitVec 1) : Sound { s with zhdr := z, warn := f } :=
  { h with memories := { h.memories with }, slots := { h.slots with } }

theorem Sound.setCursor (h : Sound s) {p : Word} (hp : p.toNat ≤ 8 * s.brLen.toNat) : Sound { s with brPos := p } :=
  { h with brPos := hp, memories := { h.memories with }, slots := { h.slots with } }

theorem Sound.advance {n : Nat} (h : Sound s) (hn : n ≤ remainingBits s) : Sound (advance n s) :=
  h.setCursor ((advance_forward hn).cursor h.cursorOk).2.cursor

theorem Sound.openReader (h : Sound s) {n : Word} (hn : n.toNat ≤ s.params.ibufCap) (o : BitVec 1) :
    Sound (openReader n o s) :=
  { h with brLen := hn, brPos := Nat.zero_le _, memories := { h.memories with }, slots := { h.slots with } }

theorem Sound.setOlen (h : Sound s) {n : Word} (hn : n.toNat ≤ s.params.obufCap) : Sound { s with olen := n } :=
  { h with olen := hn, memories := { h.memories with }, slots := { h.slots with } }

theorem Sound.setLens (h : Sound s) {m : Memory 4} (hwf : m.wf) (hin : m.within 320) : Sound { s with lens := m } :=
  { h with memories := { h.memories with lensWf := hwf, lensIn := hin }, slots := { h.slots with } }

theorem Sound.setIbuf (h : Sound s) {m : Memory 8} (hwf : m.wf) (hin : m.within s.params.ibufCap) :
    Sound { s with ibuf := m } :=
  { h with memories := { h.memories with ibufWf := hwf, ibufIn := hin }, slots := { h.slots with } }

theorem Sound.setObuf (h : Sound s) {m : Memory 8} (hwf : m.wf) (hin : m.within s.params.obufCap) :
    Sound { s with obuf := m } :=
  { h with memories := { h.memories with obufWf := hwf, obufIn := hin }, slots := { h.slots with } }

theorem Sound.setRbuf (h : Sound s) {m : Memory 8} (hwf : m.wf) (hin : m.within s.params.rbufCap) :
    Sound { s with rbuf := m } :=
  { h with memories := { h.memories with rbufWf := hwf, rbufIn := hin }, slots := { h.slots with } }

/-- The byte `append` writes lies inside `OBUF`, and `OLEN` after it does too (R350). -/
theorem Sound.appended (h : Sound s) (hlt : s.olen.toNat < s.params.obufCap) (b : Byte) :
    Sound { s with obuf := s.obuf.set s.olen.toNat b, olen := s.olen + 1 } := by
  refine Sound.setOlen (s := { s with obuf := s.obuf.set s.olen.toNat b })
    (h.setObuf (Memory.set_wf h.memories.obufWf _ _) (Memory.set_within h.memories.obufIn hlt _)) ?_
  rw [BitVec.toNat_add]
  exact (Nat.mod_le _ _).trans hlt

/-! ### Huffman slots (R40 to R43) -/

theorem SlotOk.none (size : Nat) : SlotOk size none := nofun

/-- With `HT_VALID` 0 no slot has to hold a table. -/
theorem SlotsOk.of_htValid_zero (h : s.htValid = 0) (hcl : SlotOk 19 s.slotCL) (hll : SlotOk 288 s.slotLL)
    (hd : SlotOk 32 s.slotD) : SlotsOk s :=
  ⟨hcl, hll, hd, fun k hk => by simp [slotValid, h] at hk⟩

theorem slotValid_lt {j : Nat} (h : slotValid j s = true) : j < 3 := BitVec.lt_of_getLsbD h

theorem slotValid_setValid {j k : Nat} (h : slotValid j (setValid k s) = true) : j = k ∨ slotValid j s = true := by
  simp only [slotValid, setValid_htValid, BitVec.getLsbD_or, Bool.or_eq_true] at h ⊢
  refine h.symm.imp_left fun hbit => ?_
  simp only [BitVec.getLsbD_shiftLeft, BitVec.getLsbD_one, Bool.and_eq_true, decide_eq_true_eq,
    Bool.not_eq_eq_eq_not, Bool.not_true, decide_eq_false_iff_not] at hbit
  omega

theorem slotValid_clearValid {j k : Nat} (h : slotValid j (clearValid k s) = true) :
    j ≠ k ∧ slotValid j s = true := by
  simp only [slotValid, clearValid_htValid, BitVec.getLsbD_and, Bool.and_eq_true] at h ⊢
  obtain ⟨hold, hbit⟩ := h
  refine ⟨?_, hold⟩
  rintro rfl
  simp at hbit

theorem slotValid_setSlot (j k : Nat) (o : Option Table) : slotValid j (setSlot k o s) = slotValid j s := by
  rw [setSlot_state]
  rfl

theorem slotTable_setSlot_same (k : Nat) (o : Option Table) : slotTable k (setSlot k o s) = o := by
  rcases k with _ | _ | k <;> rfl

theorem slotTable_setSlot_other {j k : Nat} (hj : j < 3) (hk : k < 3) (hjk : j ≠ k) (o : Option Table) :
    slotTable j (setSlot k o s) = slotTable j s := by
  interval_cases j <;> interval_cases k <;> simp [slotTable, setSlot] at hjk ⊢

/-- A slot filled with nothing or a fitting table, and `HT_VALID` with it: the slots it marks must hold tables. -/
theorem Sound.setSlot {k : Nat} {o : Option Table} (h : Sound s) (ho : SlotOk (slotSize k) o) {v : BitVec 3}
    (hv : ∀ j, v.getLsbD j = true → (slotTable j (setSlot k o s)).isSome = true) :
    Sound { setSlot k o s with htValid := v } := by
  obtain ⟨hcl, hll, hd, -⟩ := h.slots
  rcases k with _ | _ | k
  · exact { h with memories := { h.memories with }, slots := ⟨ho, hll, hd, hv⟩ }
  · exact { h with memories := { h.memories with }, slots := ⟨hcl, ho, hd, hv⟩ }
  · exact { h with memories := { h.memories with }, slots := ⟨hcl, hll, ho, hv⟩ }

theorem slotSize_le (k : Nat) : slotSize k ≤ 512 := by
  unfold slotSize
  split <;> decide

/-- A table built from no more lengths than its slot has symbols fits the slot (R200, R201). -/
theorem slotOk_buildTable {k : Nat} {lens : List Nat} (hn : lens.length ≤ slotSize k) (hl : ∀ l ∈ lens, l ≤ 15) :
    SlotOk (slotSize k) (buildTable lens) := by
  intro t ht
  obtain ⟨hmax, hentries⟩ := buildTable_ok ht hl (hn.trans (slotSize_le k))
  refine ⟨hmax, fun e he => ?_⟩
  obtain ⟨hpos, hlen, hsym⟩ := hentries e he
  exact ⟨hpos, hlen, Nat.lt_of_lt_of_le hsym hn⟩

/-- `LENS` holds four-bit lengths (R33). -/
theorem lensFrom_le (a n : Nat) (s : State) : ∀ l ∈ lensFrom a n s, l ≤ 15 := by
  intro l hl
  obtain ⟨v, -, rfl⟩ := List.mem_map.1 hl
  exact Nat.le_of_lt_succ v.isLt

@[simp] theorem lensFrom_length (a n : Nat) (s : State) : (lensFrom a n s).length = n := by simp [lensFrom]

/-! ### The output only grows (R353) -/

/-- The output of `t` continues that of `s`. -/
structure Grown (s t : State) : Prop where
  olen : s.olen.toNat ≤ t.olen.toNat
  kept : ∀ a, a < s.olen.toNat → t.obuf.get a = s.obuf.get a

theorem Grown.of_sameOutput (ho : t.olen = s.olen) (hb : t.obuf = s.obuf) : Grown s t :=
  ⟨by rw [ho], fun _ _ => by rw [hb]⟩

theorem Grown.trans (h : Grown s t) (h' : Grown t u) : Grown s u :=
  ⟨h.olen.trans h'.olen, fun a ha => (h'.kept a (Nat.lt_of_lt_of_le ha h.olen)).trans (h.kept a ha)⟩

/-! ### Inside `INFLATE` -/

/-- A state inside `INFLATE`, whatever its level. -/
structure Live (s : State) : Prop extends Sound s where
  err : s.err = 0
  inflating : Inflating s

theorem Live.htValid (h : Live s) : s.htValid = 0 := h.inflating.2.2

theorem Live.inv (h : Live s) (hl : LevelOk s) : Inv s :=
  h.toSound.inv (by simp [h.err, h.inflating.1]) hl

theorem Live.setWork (h : Live s) (w : Work) : Live { s with work := w } :=
  ⟨h.toSound.setWork w, h.err, h.inflating⟩

theorem Live.setFlags (h : Live s) (z : BitVec 16) (f : BitVec 1) : Live { s with zhdr := z, warn := f } :=
  ⟨h.toSound.setFlags z f, h.err, h.inflating⟩

theorem Live.setSlot {k : Nat} {o : Option Table} (h : Live s) (ho : SlotOk (slotSize k) o) :
    Live (setSlot k o s) := by
  have hzero : (Machine.setSlot k o s).htValid = 0 := by rw [setSlot_state, h.htValid]
  refine ⟨Sound.setSlot (v := (Machine.setSlot k o s).htValid) h.toSound ho fun j hj => ?_, ?_, ?_⟩
  · simp [hzero] at hj
  · rw [setSlot_state, h.err]
  · rw [setSlot_state]
    exact h.inflating

/-- At the levels of `INFLATE` the invariant says that the state is live. -/
theorem Inv.live (h : Inv s) (hc : s.work.level ≠ .cmd) (ht : s.work.level ≠ .ftag) : Live s := by
  have hi : Inflating s := by
    have hl := h.level
    unfold LevelOk at hl
    split at hl
    · exact absurd ‹_› hc
    · exact hl
    · exact hl.1
    · exact hl.1
    · exact hl.1
    · exact absurd ‹_› ht
  exact ⟨h.sound, h.err_zero (by simp [hi.1]), hi⟩

/-- A failure inside `INFLATE` keeps the invariant: what it spoils stays in the ranges of R46 (R421). -/
theorem Live.inv_raiseInflate (h : Live s) (k : Failure) : Inv (raiseInflate k s) := by
  refine Sound.inv_raise ?_ rfl k
  exact { h with
    brPos := freeBetween_le (Nat.zero_le _) _
    olen := freeBetween_le (Nat.zero_le _) _
    memories := { h.memories with
      obufWf := Memory.unspecified_wf _
      obufIn := Memory.unspecified_within _ _
      lensWf := Memory.unspecified_wf _
      lensIn := Memory.unspecified_within _ _ }
    slots := .of_htValid_zero h.htValid (.none _) (.none _) (.none _) }

theorem Live.inv_completeInflate (h : Live s) : Inv (completeInflate s) := by
  refine Sound.inv_complete ?_ rfl
  exact { h with
    memories := { h.memories with lensWf := Memory.unspecified_wf _, lensIn := Memory.unspecified_within _ _ }
    slots := .of_htValid_zero h.htValid (.none _) (.none _) (.none _) }

/-- From `s` the stream was read on, output appended or code lengths written; the working values and the tables are
those of `s`. -/
structure Extends (s t : State) : Prop where
  live : Live t
  grown : Grown s t
  work : t.work = s.work
  slotCL : t.slotCL = s.slotCL
  slotLL : t.slotLL = s.slotLL
  slotD : t.slotD = s.slotD

theorem Extends.trans (h : Extends s t) (h' : Extends t u) : Extends s u :=
  ⟨h'.live, h.grown.trans h'.grown, h'.work.trans h.work, h'.slotCL.trans h.slotCL, h'.slotLL.trans h.slotLL,
    h'.slotD.trans h.slotD⟩

theorem Live.extends_refl (h : Live s) : Extends s s := ⟨h, .of_sameOutput rfl rfl, rfl, rfl, rfl, rfl⟩

theorem Live.extends_setCursor (h : Live s) {p : Word} (hp : p.toNat ≤ 8 * s.brLen.toNat) :
    Extends s { s with brPos := p } :=
  ⟨⟨h.setCursor hp, h.err, h.inflating⟩, .of_sameOutput rfl rfl, rfl, rfl, rfl, rfl⟩

theorem Live.extends_advance {n : Nat} (h : Live s) (hn : n ≤ remainingBits s) : Extends s (advance n s) :=
  h.extends_setCursor (h.advance hn).brPos

theorem Live.extends_appended (h : Live s) (hlt : s.olen.toNat < s.params.obufCap) (b : Byte) :
    Extends s { s with obuf := s.obuf.set s.olen.toNat b, olen := s.olen + 1 } := by
  refine ⟨⟨h.appended hlt b, h.err, h.inflating⟩,
    ⟨?_, fun a ha => Memory.get_set_other _ _ (Nat.ne_of_gt ha)⟩, rfl, rfl, rfl, rfl⟩
  have hcap := (params_bounds h.params).2
  have hone : (1 : Word).toNat = 1 := rfl
  rw [BitVec.toNat_add, hone]
  omega

/-! ### How operations and instructions end -/

/-- An instruction of a stream ends well: the invariant holds, and the command is over or its output continued. -/
structure Landed (s t : State) : Prop where
  inv : Inv t
  output : t.atHost ∨ Grown s t

/-- Output appended before the last part of an instruction stays appended. -/
theorem Landed.after (h : Landed t u) (hg : Grown s t) : Landed s u := ⟨h.inv, h.output.imp_right hg.trans⟩

/-- An instruction that ends by setting the working values. -/
theorem Live.landed_setWork (h : Live t) (hg : Grown s t) {w : Work} (hl : LevelOk { t with work := w }) :
    Landed s { t with work := w } :=
  ⟨(h.setWork w).inv hl, .inr (hg.trans (.of_sameOutput rfl rfl))⟩

/-- The symbol loop is entered with the tables it needs (R235, R250, R257). -/
theorem Live.landed_enterSymbols (h : Live t) (hg : Grown s t) {f : Bool} (hll : t.slotLL.isSome = true)
    (hd : f = true ∨ t.slotD.isSome = true) : Landed s (enterSymbols f t) :=
  h.landed_setWork hg (w := { Work.idle with level := .llsym, bfinal := t.work.bfinal, fixedDist := f })
    ⟨h.inflating, hll, hd⟩

theorem Live.landed_endBlock (h : Live s) : Landed s (endBlock s) := by
  rcases endBlock_cases s with ⟨-, he⟩ | ⟨-, he⟩ <;> rw [he]
  · exact ⟨h.inv_completeInflate, .inl rfl⟩
  · exact h.landed_setWork (.of_sameOutput rfl rfl) h.inflating

/-- An operation inside `INFLATE` ends as `Q` says, or raises in a live state. -/
inductive Res.Ends {α : Type} (Q : α → State → Prop) : Res α → Prop
  | ok {a : α} {t : State} (h : Q a t) : Res.Ends Q (.ok a t)
  | fail {k : Failure} {t : State} (h : Live t) : Res.Ends Q (.fail k t)

theorem Res.Ends.andThen {α β : Type} {Q : α → State → Prop} {R : β → State → Prop} {r : Res α}
    {f : α → State → Res β} (h : r.Ends Q) (hf : ∀ a t, Q a t → (f a t).Ends R) : (r.andThen f).Ends R := by
  cases h with
  | ok h => exact hf _ _ h
  | fail h => exact .fail h

theorem Res.Ends.mono {α : Type} {Q R : α → State → Prop} {r : Res α} (h : r.Ends Q)
    (hQ : ∀ a t, Q a t → R a t) : r.Ends R := by
  cases h with
  | ok h => exact .ok (hQ _ _ h)
  | fail h => exact .fail h

/-! #### Reading and output -/

theorem readCode_ends (n : Nat) (h : Live s) : (readCode n s).Ends fun _ t => Extends s t := by
  rcases readCode_cases n s with ⟨hn, he⟩ | ⟨-, he⟩ <;> rw [he]
  · exact .ok (h.extends_advance hn)
  · exact .fail h

theorem readReversed_ends (n : Nat) (h : Live s) : (readReversed n s).Ends fun v t => v < 2 ^ n ∧ Extends s t := by
  rcases readReversed_cases n s with ⟨hn, he⟩ | ⟨-, he⟩ <;> rw [he]
  · exact .ok ⟨packInteger_lt .., h.extends_advance hn⟩
  · exact .fail h

theorem decodeOne_ends (k : Nat) (h : Live s) : (decodeOne k s).Ends fun _ t => Extends s t := by
  have hle := (decodeOne_le k h.cursorOk.length h.brPos).2
  rcases decodeOne_cases k s with ⟨_, m, sym, -, -, -, -, he⟩ | ⟨m, he⟩ <;> rw [he] at hle ⊢
  · exact .ok (h.extends_setCursor hle)
  · exact .fail (h.extends_setCursor hle).live

theorem append_ends (b : Byte) (h : Live s) : (append b s).Ends fun _ t => Extends s t := by
  rcases append_cases b s with ⟨-, he⟩ | ⟨hlt, he⟩ <;> rw [he]
  · exact .fail h
  · exact .ok (h.extends_appended hlt b)

theorem copyLoop_ends (n d : Nat) (h : Live s) : (copyLoop n d s).Ends fun _ t => Extends s t := by
  induction n generalizing s with
  | zero => exact .ok h.extends_refl
  | succ n ih => exact (append_ends _ h).andThen fun _ t ht => (ih ht.live).mono fun _ _ => ht.trans

theorem copy_ends (len d : Nat) (h : Live s) : (copy len d s).Ends fun _ t => Extends s t := by
  unfold copy
  split
  · exact .fail h
  · exact copyLoop_ends len d h

/-! #### Stored and fixed blocks -/

theorem copyStored_ends (n : Nat) (h : Live s) : (copyStored n s).Ends fun _ t => Extends s t := by
  induction n generalizing s with
  | zero => exact .ok h.extends_refl
  | succ n ih =>
    exact (readReversed_ends 8 h).andThen fun _ _ ⟨_, h1⟩ => (append_ends _ h1.live).andThen fun _ _ h2 =>
      (ih h2.live).mono fun _ _ => (h1.trans h2).trans

theorem checkComplement_ends (len nlen : Nat) (h : Live s) :
    (checkComplement len nlen s).Ends fun _ t => Extends s t := by
  rcases checkComplement_cases len nlen s with ⟨-, he⟩ | ⟨-, -, he⟩ | ⟨-, -, he⟩ <;> rw [he]
  · exact .ok h.extends_refl
  · exact .fail h
  · exact .ok ⟨h.setFlags s.zhdr 1, .of_sameOutput rfl rfl, rfl, rfl, rfl, rfl⟩

theorem storedBlock_ends (h : Live s) : (storedBlock s).Ends fun _ t => Landed s t :=
  (readCode_ends _ h).andThen fun _ _ h1 => (readReversed_ends 16 h1.live).andThen fun _ _ ⟨_, h2⟩ =>
    (readReversed_ends 16 h2.live).andThen fun _ _ ⟨_, h3⟩ =>
    (checkComplement_ends _ _ h3.live).andThen fun _ _ h4 => (copyStored_ends _ h4.live).andThen fun _ _ h5 =>
    .ok (h5.live.landed_endBlock.after ((((h1.trans h2).trans h3).trans h4).trans h5).grown)

theorem build_ends {k : Nat} {lens : List Nat} (h : Live s) (hn : lens.length ≤ slotSize k)
    (hl : ∀ l ∈ lens, l ≤ 15) : (build k lens s).Ends fun _ t => Live t ∧ ∃ tbl, t = setSlot k (some tbl) s := by
  rcases build_cases k lens s with ⟨tbl, ht, he⟩ | ⟨-, he⟩ <;> rw [he]
  · exact .ok ⟨h.setSlot (ht ▸ slotOk_buildTable hn hl), tbl, rfl⟩
  · exact .fail (h.setSlot (.none _))

theorem fixedLens_length : fixedLens.length ≤ slotSize 1 := by
  simp only [fixedLens, List.length_append, List.length_replicate, slotSize]
  decide

theorem fixedLens_le : ∀ l ∈ fixedLens, l ≤ 15 := by
  intro l hl
  simp only [fixedLens, List.mem_append, List.mem_replicate] at hl
  omega

theorem fixedBlock_ends (h : Live s) :
    ((build 1 fixedLens s).andThen fun _ s => .ok () (enterSymbols true s)).Ends fun _ t => Landed s t := by
  refine (build_ends h fixedLens_length fixedLens_le).andThen fun _ t ⟨ht, tbl, he⟩ => ?_
  subst he
  exact .ok (ht.landed_enterSymbols (s := s) (.of_sameOutput rfl rfl) rfl (.inl rfl))

/-! #### Dynamic blocks -/

theorem readClLens_ends {order cl : List Nat} (h : Live s) (hn : cl.length ≤ 19) (hl : ∀ l ∈ cl, l ≤ 15) :
    (readClLens order cl s).Ends fun cl' t => (cl'.length ≤ 19 ∧ ∀ l ∈ cl', l ≤ 15) ∧ Extends s t := by
  induction order generalizing cl s with
  | nil => exact .ok ⟨⟨hn, hl⟩, h.extends_refl⟩
  | cons o rest ih =>
    refine (readReversed_ends 3 h).andThen fun v t ⟨hv, ht⟩ => ?_
    refine (ih ht.live (by simpa using hn) fun l hmem => ?_).mono fun _ _ => .imp_right ht.trans
    rcases List.mem_or_eq_of_mem_set hmem with hmem | rfl
    · exact hl l hmem
    · omega

theorem dynamicHeader_ends (h : Live s) : (dynamicHeader s).Ends fun _ t => Landed s t := by
  refine (readReversed_ends 5 h).andThen fun hlit _ ⟨hlit_lt, h1⟩ => ?_
  refine (readReversed_ends 5 h1.live).andThen fun hdist _ ⟨hdist_lt, h2⟩ => ?_
  refine (readReversed_ends 4 h2.live).andThen fun _ _ ⟨_, h3⟩ => ?_
  refine (readClLens_ends h3.live (by simp) (by simp)).andThen fun _ _ ⟨⟨hn, hl⟩, h4⟩ => ?_
  refine (build_ends (k := 0) h4.live hn hl).andThen fun _ _ ⟨ht, tbl, he⟩ => ?_
  subst he
  have hgrown := (((h1.trans h2).trans h3).trans h4).grown
  refine .ok (ht.landed_setWork (hgrown.trans (.of_sameOutput rfl rfl)) ⟨ht.inflating, rfl, ?_⟩)
  dsimp only [Work.idle]
  omega

/-- Inside the code-length loop of a dynamic block: what its level asks, but for the end of the loop (R249). -/
structure InCodeLengths (s : State) : Prop extends Live s where
  level : s.work.level = .clsym
  slotCL : s.slotCL.isSome = true
  hlit : 257 ≤ s.work.hlit ∧ s.work.hlit ≤ 288
  hdist : 1 ≤ s.work.hdist ∧ s.work.hdist ≤ 32

theorem Inv.level_clsym (h : Inv s) (hv : s.work.level = .clsym) : InCodeLengths s := by
  have hl := h.level
  rw [LevelOk, hv] at hl
  obtain ⟨-, hcl, hlit_ge, hlit_le, hdist_ge, hdist_le, -⟩ := hl
  exact ⟨h.live (by simp [hv]) (by simp [hv]), hv, hcl, ⟨hlit_ge, hlit_le⟩, hdist_ge, hdist_le⟩

theorem InCodeLengths.inv (h : InCodeLengths s) (hp : s.work.produced < s.work.hlit + s.work.hdist) : Inv s := by
  refine h.toLive.inv ?_
  rw [LevelOk, h.level]
  exact ⟨h.inflating, h.slotCL, h.hlit.1, h.hlit.2, h.hdist.1, h.hdist.2, hp⟩

theorem InCodeLengths.extend (h : InCodeLengths s) (he : Extends s t) : InCodeLengths t where
  toLive := he.live
  level := by rw [he.work, h.level]
  slotCL := by rw [he.slotCL, h.slotCL]
  hlit := by rw [he.work]; exact h.hlit
  hdist := by rw [he.work]; exact h.hdist

theorem InCodeLengths.setProduced (h : InCodeLengths s) (n : Nat) :
    InCodeLengths { s with work := { s.work with produced := n } } :=
  ⟨h.toLive.setWork _, h.level, h.slotCL, h.hlit, h.hdist⟩

theorem fillLens_extends {k r : Nat} (v : Nibble) (h : Live s) (hk : k + r ≤ 320) :
    Extends s (fillLens k v r s) := by
  rw [fillLens_state]
  exact ⟨⟨h.setLens (fillLens_wf h.memories.lensWf) (fillLens_within h.memories.lensIn hk), h.err, h.inflating⟩,
    .of_sameOutput rfl rfl, rfl, rfl, rfl, rfl⟩

theorem afterLengths_ends (h : InCodeLengths s) : (afterLengths s).Ends fun _ t => Landed s t := by
  unfold afterLengths
  split
  · exact .ok ⟨h.inv ‹_›, .inr (.of_sameOutput rfl rfl)⟩
  · refine (build_ends (k := 1) h.toLive (by rw [lensFrom_length]; exact h.hlit.2) (lensFrom_le _ _ _)).andThen
      fun _ _ ⟨ht, tl, he⟩ => ?_
    subst he
    refine (build_ends (k := 2) ht (by rw [lensFrom_length]; exact h.hdist.2) (lensFrom_le _ _ _)).andThen
      fun _ _ ⟨hu, td, he⟩ => ?_
    subst he
    exact .ok (hu.landed_enterSymbols (s := s) (.of_sameOutput rfl rfl) rfl (.inr rfl))

theorem emit_ends (v : Nibble) (r : Nat) (h : InCodeLengths s) : (emit v r s).Ends fun _ t => Landed s t := by
  unfold emit
  split
  · exact .fail h.toLive
  · have hfits : s.work.produced + r ≤ 320 := by
      have hlit := h.hlit.2
      have hdist := h.hdist.2
      omega
    have hfill := fillLens_extends v h.toLive hfits
    exact (afterLengths_ends ((h.extend hfill).setProduced _)).mono fun _ _ ht =>
      ht.after (hfill.grown.trans (.of_sameOutput rfl rfl))

theorem zeroRepeat_ends (extra base : Nat) (h : InCodeLengths s) :
    (zeroRepeat extra base s).Ends fun _ t => Landed s t :=
  (readReversed_ends extra h.toLive).andThen fun _ _ ⟨_, ht⟩ =>
    (emit_ends 0 _ (h.extend ht)).mono fun _ _ hu => hu.after ht.grown

/-! ### The instructions of a stream -/

/-- An instruction of a stream gives a next state and ends well. -/
def Lands (s : State) (o : Out) : Prop := ∃ t, o = .next t ∧ Landed s t

theorem settleInflate_lands {r : Res Unit} (h : r.Ends fun _ t => Landed s t) : Lands s (settleInflate r) := by
  cases h with
  | ok h => exact ⟨_, rfl, h⟩
  | fail h => exact ⟨_, rfl, h.inv_raiseInflate _, .inl (raiseInflate_atHost ..)⟩

/-- A block whose body ends well, its `BFINAL` held first (R226). -/
theorem block_lands {f : Bool} {r : Res Unit} (h : r.Ends fun _ t => Landed (setFinal f s) t) :
    Lands s (settleInflate r) :=
  settleInflate_lands (h.mono fun _ _ ht => ht.after (.of_sameOutput rfl rfl))

theorem execBlkFixed_lands (h : Live s) (f : Bool) : Lands s (execBlkFixed f s) :=
  block_lands (fixedBlock_ends (h.setWork _))

theorem TablesReady.extend (h : TablesReady s) (he : Extends s t) : TablesReady t := by
  obtain ⟨hll, hd⟩ := h
  exact ⟨by rw [he.slotLL, hll], by rw [he.work, he.slotD]; exact hd⟩

theorem Inv.level_llsym (h : Inv s) (hv : s.work.level = .llsym) : Live s ∧ TablesReady s := by
  have hl := h.level
  rw [LevelOk, hv] at hl
  exact ⟨h.live (by simp [hv]) (by simp [hv]), hl.2⟩

theorem Inv.level_dsym (h : Inv s) (hv : s.work.level = .dsym) : Live s ∧ TablesReady s := by
  have hl := h.level
  rw [LevelOk, hv] at hl
  obtain ⟨-, htables, -⟩ := hl
  exact ⟨h.live (by simp [hv]) (by simp [hv]), htables⟩

theorem execLit_lands (h : Inv s) (hv : s.work.level = .llsym) (b : Byte) : Lands s (execLit b s) := by
  obtain ⟨hlive, htables⟩ := h.level_llsym hv
  refine settleInflate_lands ((append_ends b hlive).mono fun _ t ht => ⟨ht.live.inv ?_, .inr ht.grown⟩)
  rw [LevelOk, ht.work, hv]
  exact ⟨ht.live.inflating, htables.extend ht⟩

/-- A length symbol whose lengths are those of a match, 3 to 258 (R111). -/
theorem lengthSymbol_lands (h : Inv s) (hv : s.work.level = .llsym) {extra base : Nat} (hb : 3 ≤ base)
    (hm : base + 2 ^ extra ≤ 259) : Lands s (lengthSymbol extra base s) := by
  obtain ⟨hlive, htables⟩ := h.level_llsym hv
  refine settleInflate_lands ((readReversed_ends extra hlive).andThen fun e t ⟨he, ht⟩ => .ok ?_)
  obtain ⟨hll, hd⟩ := htables.extend ht
  refine ht.live.landed_setWork ht.grown ⟨ht.live.inflating, ⟨hll, hd⟩, ?_⟩
  dsimp only
  omega

theorem distanceSymbol_lands (h : Inv s) (hv : s.work.level = .dsym) (extra base : Nat) :
    Lands s (distanceSymbol extra base s) := by
  obtain ⟨hlive, htables⟩ := h.level_dsym hv
  refine settleInflate_lands ((readReversed_ends extra hlive).andThen fun _ _ ⟨_, ht⟩ =>
    (copy_ends _ _ ht.live).andThen fun _ u hu => .ok ?_)
  obtain ⟨hll, hd⟩ := htables.extend (ht.trans hu)
  exact hu.live.landed_setWork (ht.trans hu).grown ⟨hu.live.inflating, hll, hd⟩

theorem execClRep_lands (h : InCodeLengths s) : Lands s (execClRep s) := by
  refine settleInflate_lands ?_
  split
  · exact .fail h.toLive
  · exact (readReversed_ends 2 h.toLive).andThen fun _ _ ⟨_, ht⟩ =>
      (emit_ends _ _ (h.extend ht)).mono fun _ _ hu => hu.after ht.grown

/-- The end of `DEFILTER` leaves `RLEN` in its range if its rows fit `RBUF` (R360, R363). -/
theorem Sound.inv_completeDefilter (h : Sound s) (hcap : nRows s * rowWidth s ≤ s.params.rbufCap) :
    Inv (completeDefilter s) := by
  refine Sound.inv_complete ?_ rfl
  exact { h with
    rlen := by
      rw [BitVec.toNat_ofNat]
      exact (Nat.mod_le _ _).trans hcap
    memories := { h.memories with }
    slots := { h.slots with } }

/-- A row of `DEFILTER` is written inside `RBUF` (R360, R363). -/
theorem filterRow_lands (h : Inv s) (hv : s.work.level = .ftag) (pred : Predictor) :
    Lands s (filterRow pred s) := by
  obtain ⟨hbusy, hbytes, hchannels, hrow, hin, hout⟩ := h.level_ftag hv
  have hcap : s.work.row * rowWidth s + 0 + rowWidth s ≤ s.params.rbufCap := by
    have hrows := Nat.mul_le_mul_right (rowWidth s) (Nat.succ_le_of_lt hrow)
    rw [Nat.succ_mul] at hrows
    omega
  have hwf : (reconRow pred s.work.row (rowWidth s) 0 s).rbuf.wf := reconRow_wf h.memories.rbufWf
  have hwithin := reconRow_within (pred := pred) h.memories.rbufIn hcap
  refine ⟨_, rfl, ?_⟩
  rw [reconRow_state]
  generalize (reconRow pred s.work.row (rowWidth s) 0 s).rbuf = m at hwf hwithin
  have hsound := h.sound.setRbuf hwf hwithin
  unfold nextRow
  split
  · refine ⟨(hsound.setWork _).inv h.ranges.err ?_, .inr (.of_sameOutput rfl rfl)⟩
    simp only [LevelOk, hv]
    exact ⟨hbusy, hbytes, hchannels, ‹_›, hin, hout⟩
  · exact ⟨hsound.inv_completeDefilter hout, .inl rfl⟩

theorem execFtIllegal_lands (h : Inv s) (tag : BitVec 8) : Lands s (execFtIllegal tag s) := by
  refine ⟨_, rfl, Sound.inv_raise ?_ rfl _, .inl rfl⟩
  exact { h.sound with
    rlen := freeBetween_le (Nat.zero_le _) _
    memories := { h.memories with rbufWf := Memory.unspecified_wf _, rbufIn := Memory.unspecified_within _ _ }
    slots := { h.slots with } }

/-- Every instruction of a stream, at its own level, keeps the invariant and the output. -/
theorem streamExec_lands (h : Inv s) {i : Instr} (hi : i.format = s.work.level) (hc : s.work.level ≠ .cmd) :
    Lands s (streamExec i s) := by
  have hlive (hv : s.work.level ≠ .ftag) : Live s := h.live hc hv
  cases i with
  | blkStored f => exact block_lands (storedBlock_ends ((hlive (hi ▸ nofun)).setWork _))
  | blkFixed f => exact execBlkFixed_lands (hlive (hi ▸ nofun)) f
  | blkDynamic f => exact block_lands (dynamicHeader_ends ((hlive (hi ▸ nofun)).setWork _))
  | lit v => exact execLit_lands h hi.symm v
  | eob => exact settleInflate_lands (.ok (a := ()) (hlive (hi ▸ nofun)).landed_endBlock)
  | blkReserved | llInvalid286 | llInvalid287 | llUnreachable | dInvalid =>
    exact settleInflate_lands (.fail (hlive (hi ▸ nofun)))
  | clLen v => exact settleInflate_lands (emit_ends v 1 (h.level_clsym hi.symm))
  | clRep => exact execClRep_lands (h.level_clsym hi.symm)
  | clZrep3 | clZrep11 | clUnreachable => exact settleInflate_lands (zeroRepeat_ends _ _ (h.level_clsym hi.symm))
  | len257 | len258 | len259 | len260 | len261 | len262 | len263 | len264 | len265 | len266 | len267 | len268
  | len269 | len270 | len271 | len272 | len273 | len274 | len275 | len276 | len277 | len278 | len279 | len280
  | len281 | len282 | len283 | len284 | len285 =>
    dsimp only [streamExec]
    refine lengthSymbol_lands h hi.symm ?_ ?_ <;> decide
  | dist0 | dist1 | dist2 | dist3 | dist4 | dist5 | dist6 | dist7 | dist8 | dist9 | dist10 | dist11 | dist12
  | dist13 | dist14 | dist15 | dist16 | dist17 | dist18 | dist19 | dist20 | dist21 | dist22 | dist23 | dist24
  | dist25 | dist26 | dist27 | dist28 | dist29 =>
    dsimp only [streamExec]
    exact distanceSymbol_lands h hi.symm _ _
  | ftNone | ftSub | ftUp | ftAverage | ftPaeth => exact filterRow_lands h hi.symm _
  | ftIllegal tag => exact execFtIllegal_lands h tag
  | _ => exact absurd hi.symm hc

/-! ### Turns of a stream -/

theorem fetch_ends {r : Res Instr} (h : Live s) (hf : fetch s = some r) (hv : s.work.level ≠ .ftag) :
    r.Ends fun _ t => Extends s t := by
  unfold fetch at hf
  split at hf <;> cases hf
  · exact (readCode_ends 1 h).andThen fun _ _ ht => (readReversed_ends 2 ht.live).andThen fun _ _ ⟨_, hu⟩ =>
      .ok (ht.trans hu)
  · exact (decodeOne_ends 1 h).andThen fun _ _ ht => .ok ht
  · unfold fetchDistance
    split
    · exact (readCode_ends 5 h).andThen fun _ _ ht => .ok ht
    · exact (decodeOne_ends 2 h).andThen fun _ _ ht => .ok ht
  · exact (decodeOne_ends 0 h).andThen fun _ _ ht => .ok ht
  · exact absurd ‹_› hv

/-- A turn of `INFLATE` or `DEFILTER` keeps the invariant and the output. -/
theorem streamTurn_lands {r : Res Instr} (h : Inv s) (hf : fetch s = some r) : Lands s (streamTurn r) := by
  by_cases hv : s.work.level = .ftag
  · simp only [fetch, hv, Option.some.injEq] at hf
    subst hf
    exact streamExec_lands h (by rw [decodeFilterTag_format, hv]) (by simp [hv])
  · have hrunning : s.work.level ≠ .cmd := fun hcmd => by simp [fetch_none.2 hcmd] at hf
    cases r with
    | ok i t =>
      cases fetch_ends (h.live hrunning hv) hf hv with | ok ht =>
      obtain ⟨hformat, -, m, rfl⟩ := fetch_ok hf
      obtain ⟨u, hu, hland⟩ := streamExec_lands (ht.live.inv h.level) hformat hrunning
      exact ⟨u, hu, hland.after ht.grown⟩
    | fail k t =>
      cases fetch_ends (h.live hrunning hv) hf hv with | fail ht =>
      exact ⟨_, rfl, ht.inv_raiseInflate k, .inl (raiseInflate_atHost k t)⟩

/-- A run inside one command keeps the invariant, however many turns it takes. -/
theorem runStream_inv {n : Nat} (h : Inv s) (hr : runStream n s = .next t) : Inv t := by
  induction n generalizing s with
  | zero =>
    cases hr
    exact h
  | succ n ih =>
    cases hf : fetch s with
    | none =>
      simp only [runStream, hf] at hr
      cases hr
      exact h
    | some r =>
      obtain ⟨u, hu, hland⟩ := streamTurn_lands h hf
      simp only [runStream, hf, hu] at hr
      exact ih hland.inv hr

theorem fetch_of_running (hc : s.work.level ≠ .cmd) : ∃ r, fetch s = some r :=
  Option.ne_none_iff_exists'.1 (mt fetch_none.1 hc)

end

/-- Settles O30: the output by `streamTurn_lands`, the cursor by `streamTurn_resumes`; a command that is over is not
busy. -/
theorem streamProgress : Obligations.StreamProgress := by
  intro s t h hc hv ht hbusy
  obtain ⟨r, hf⟩ := fetch_of_running hc
  rw [step_of_fetch hf] at ht
  obtain ⟨_, hland, hinv, houtput⟩ := streamTurn_lands h hf
  obtain ⟨_, hresume, hcursor⟩ := streamTurn_resumes hf hv
  cases ht.symm.trans hland
  cases ht.symm.trans hresume
  have hruns : ¬ t.atHost := fun ha => hinv.not_busy ha hbusy
  have hgrown := houtput.resolve_left hruns
  obtain ⟨hmoved, hcursorT⟩ := (hcursor.resolve_left hruns).cursor h.sound.cursorOk
  exact ⟨hmoved, hcursorT.cursor, hgrown.olen, hgrown.kept⟩

/-! ## Commands keep the invariant -/

section
variable {s t : State}

/-- A command gives a next state in which it is over and the invariant holds. -/
def Rests (o : Out) : Prop := ∃ t, o = .next t ∧ t.atHost ∧ Inv t

theorem rests_complete (h : Sound s) (hw : s.work = Work.idle) : Rests (.next (complete s)) :=
  ⟨_, rfl, congrArg Work.level hw, h.inv_complete hw⟩

theorem rests_raise (h : Sound s) (hw : s.work = Work.idle) (k : Failure) : Rests (.next (raise k s)) :=
  ⟨_, rfl, congrArg Work.level hw, h.inv_raise hw k⟩

/-- A command that `FAULT` ignores rests if its body does. -/
theorem command_rests {body : State → State} (h : Inv s) (ha : s.atHost) (hb : Rests (.next (body s))) :
    Rests (command s body) := by
  unfold command
  split
  · exact ⟨s, rfl, ha, h⟩
  · exact hb

/-- An operand check raises `BadCommand` with nothing else changed, or lets the command go on. -/
theorem operandCheck_rests {bad : Prop} [Decidable bad] (h : Inv s) (ha : s.atHost)
    (ht : ¬bad → Rests (.next t)) : Rests (.next (if bad then raise .badCommand s else t)) := by
  split
  · exact rests_raise h.sound (h.work_idle ha) _
  · exact ht ‹_›

/-! ### Housekeeping -/

/-- Every register at 0 is in its range and marks no slot valid (R46, R47). -/
theorem inv_resetRegisters (hp : s.params.wf = true) (hm : MemoriesOk s) (hcl : SlotOk 19 s.slotCL)
    (hll : SlotOk 288 s.slotLL) (hd : SlotOk 32 s.slotD) : Inv (resetRegisters s) where
  params := hp
  ranges := ⟨Nat.zero_le _, Nat.zero_le _, Nat.zero_le _, Nat.zero_le _, by simp [resetRegisters]⟩
  memories := { hm with }
  slots := .of_htValid_zero rfl hcl hll hd
  level := levelOk_atHost rfl nofun

theorem execReset_rests (h : Inv s) : Rests (execReset s) :=
  ⟨_, rfl, rfl, inv_resetRegisters h.params h.memories h.slots.cl h.slots.ll h.slots.d⟩

theorem execClr_rests (h : Inv s) (ha : s.atHost) : Rests (execClr s) := by
  refine ⟨_, rfl, ha, ?_⟩
  exact {
    params := h.params
    ranges := { h.ranges with err := by simp }
    memories := { h.memories with }
    slots := { h.slots with }
    level := levelOk_atHost (h.work_idle ha) nofun }

theorem execObSetlen_rests (h : Inv s) (ha : s.atHost) : Rests (execObSetlen s) :=
  command_rests h ha <| operandCheck_rests h ha fun hn =>
    rests_complete (h.sound.setOlen (Nat.not_lt.1 hn)) (h.work_idle ha)

/-! ### The bit reader and the CRC -/

theorem execBrInit_rests (h : Inv s) (ha : s.atHost) : Rests (execBrInit s) :=
  command_rests h ha <| operandCheck_rests h ha fun hn =>
    rests_complete (h.sound.openReader (Nat.not_lt.1 hn) _) (h.work_idle ha)

theorem Sound.spoilResult (h : Sound s) : Sound (spoilResult s) := h.setRes0 _ _

/-- A read command: its read moves the cursor over bits that are there, or raises where it stands. -/
theorem settleRead_rests {n v : Nat} {r : Res Nat} (h : Sound s) (hw : s.work = Work.idle)
    (hr : (n ≤ remainingBits s ∧ r = .ok v (advance n s)) ∨ (remainingBits s < n ∧ r = .fail .insufficientBits s)) :
    Rests (.next (settleRead r)) := by
  rcases hr with ⟨hn, rfl⟩ | ⟨-, rfl⟩
  · exact rests_complete ((h.advance hn).setRes0 _ _) hw
  · exact rests_raise h.spoilResult hw _

theorem execBrRead_rests (h : Inv s) (ha : s.atHost) : Rests (execBrRead s) :=
  command_rests h ha <| operandCheck_rests h ha fun _ =>
    settleRead_rests h.sound (h.work_idle ha) (readCode_cases _ s)

theorem execBrReadRev_rests (h : Inv s) (ha : s.atHost) : Rests (execBrReadRev s) :=
  command_rests h ha <| operandCheck_rests h ha fun _ =>
    settleRead_rests h.sound (h.work_idle ha) (readReversed_cases _ s)

theorem execBrRemaining_rests (h : Inv s) (ha : s.atHost) : Rests (execBrRemaining s) :=
  command_rests h ha (rests_complete (h.sound.setRes0 _ _) (h.work_idle ha))

theorem execCrcCompute_rests (h : Inv s) (ha : s.atHost) : Rests (execCrcCompute s) :=
  command_rests h ha <| operandCheck_rests h ha fun _ =>
    rests_complete (h.sound.setRes0 _ _) (h.work_idle ha)

theorem execCrcCheck_rests (h : Inv s) (ha : s.atHost) : Rests (execCrcCheck s) := by
  refine command_rests h ha <| operandCheck_rests h ha fun _ => ?_
  have hcrc := h.sound.setRes0 (messageCrc s) s.freeCtr
  dsimp only
  split
  · exact rests_complete hcrc (h.work_idle ha)
  · exact rests_raise hcrc (h.work_idle ha) _

/-! ### Huffman tables -/

/-- `HT_BUILD` marks its slot valid with the table it built, or invalid with none; the other slots are as before. -/
theorem execHtBuild_rests (h : Inv s) (ha : s.atHost) : Rests (execHtBuild s) := by
  refine command_rests h ha <| operandCheck_rests h ha fun hslot => operandCheck_rests h ha fun hcount => ?_
  generalize s.arg0.toNat = k at *
  have hn : (lensFrom 0 s.arg1.toNat s).length ≤ slotSize k := by
    rw [lensFrom_length]
    omega
  have hwork {o : Option Table} : (setSlot k o s).work = Work.idle := by
    rw [setSlot_state]
    exact h.work_idle ha
  have hother {j : Nat} {o : Option Table} (hjk : j ≠ k) (hj : slotValid j (setSlot k o s) = true) :
      (slotTable j (setSlot k o s)).isSome = true := by
    rw [slotTable_setSlot_other (slotValid_lt hj) (by omega) hjk]
    exact h.slots.valid j (slotValid_setSlot j k o ▸ hj)
  rcases build_cases k (lensFrom 0 s.arg1.toNat s) s with ⟨t, ht, he⟩ | ⟨-, he⟩ <;> rw [he]
  · have hfits := ht ▸ slotOk_buildTable hn (lensFrom_le _ _ _)
    refine rests_complete (h.sound.setSlot hfits fun j hj => ?_) hwork
    by_cases hjk : j = k
    · rw [hjk, slotTable_setSlot_same]
      rfl
    · exact hother hjk ((slotValid_setValid hj).resolve_left hjk)
  · exact rests_raise (h.sound.setSlot (.none _) fun j hj => (slotValid_clearValid hj).elim hother) hwork _

theorem Sound.spoilDecode (h : Sound s) {pos : Nat} (hp : pos ≤ 8 * s.brLen.toNat) : Sound (spoilDecode pos s) :=
  { h with brPos := freeBetween_le hp _, memories := { h.memories with }, slots := { h.slots with } }

theorem execHtDecode_rests (h : Inv s) (ha : s.atHost) : Rests (execHtDecode s) := by
  have hw := h.work_idle ha
  have hs := h.sound
  refine command_rests h ha <| operandCheck_rests h ha fun _ => ?_
  split
  · have hle := (decodeOne_le s.arg0.toNat hs.cursorOk.length hs.brPos).2
    rcases decodeOne_cases s.arg0.toNat s with ⟨_, m, sym, -, -, -, -, he⟩ | ⟨m, he⟩ <;> rw [he] at hle ⊢
    · exact rests_complete ((hs.setCursor hle).setRes0 _ _) hw
    · exact rests_raise ((hs.setCursor hle).spoilDecode hs.brPos) hw _
  · exact rests_raise hs hw _

/-! ### `INFLATE` -/

theorem enterInflate_live (h : Inv s) (hs : s.status ≠ .fault) (hn : s.arg0.toNat ≤ s.params.ibufCap) :
    Live (enterInflate s) where
  params := h.params
  brLen := hn
  brPos := Nat.zero_le _
  olen := Nat.zero_le _
  rlen := h.ranges.rlen
  memories := { h.memories with }
  slots := .of_htValid_zero rfl h.slots.cl h.slots.ll h.slots.d
  err := h.err_zero hs
  inflating := ⟨rfl, rfl, rfl⟩

theorem zlibHeader_ends (h : Live s) : (zlibHeader s).Ends fun _ t => Live t := by
  refine (readReversed_ends 8 h).andThen fun cmf _ ⟨_, h1⟩ => ?_
  refine (readReversed_ends 8 h1.live).andThen fun flg u ⟨_, h2⟩ => ?_
  have hzhdr := h2.live.setFlags (BitVec.ofNat 16 (cmf + 256 * flg)) u.warn
  dsimp only
  split
  · exact .fail hzhdr
  · exact .ok hzhdr

theorem exec_inflate_rests (h : Inv s) (ha : s.atHost) : Rests (exec .inflate s) := by
  by_cases hs : s.status = .fault
  · exact ⟨s, exec_ignored hs rfl, ha, h⟩
  by_cases hn : s.params.ibufCap < s.arg0.toNat
  · simp only [exec, execInflate, if_neg hs, if_pos hn]
    exact rests_raise h.sound (h.work_idle ha) _
  have hends := zlibHeader_ends (enterInflate_live h hs (Nat.not_lt.1 hn))
  generalize hz : zlibHeader (enterInflate s) = r at hends
  cases hends with
  | @ok _ s' hlive =>
    obtain ⟨_, t, ht, -, hover⟩ := inflateIsItsStream s s' h ha hs (Nat.not_lt.1 hn) hz
    have hblocks : Inv (enterBlocks s') := (hlive.setWork _).inv hlive.inflating
    exact ⟨t, ht, hover, runStream_inv hblocks (exec_inflate_of_header hs (Nat.not_lt.1 hn) hz ▸ ht)⟩
  | fail hlive =>
    simp only [exec, execInflate, if_neg hs, if_neg hn, hz]
    exact ⟨_, rfl, raiseInflate_atHost _ _, hlive.inv_raiseInflate _⟩

/-! ### `DEFILTER` -/

/-- A turn of `DEFILTER` ended the command, or the next row is next (R363). -/
def NextRow (s t : State) : Prop :=
  t.atHost ∨ t.work.level = .ftag ∧ t.work.row = s.work.row + 1 ∧ nRows t = nRows s

theorem filterRow_nextRow (pred : Predictor) (hv : s.work.level = .ftag) :
    ∃ t, filterRow pred s = .next t ∧ NextRow s t := by
  refine ⟨_, rfl, ?_⟩
  rw [reconRow_state, nextRow]
  split
  · exact .inr ⟨hv, rfl, rfl⟩
  · exact .inl rfl

theorem streamTurn_nextRow {r : Res Instr} (hf : fetch s = some r) (hv : s.work.level = .ftag) :
    ∃ t, streamTurn r = .next t ∧ NextRow s t := by
  simp only [fetch, hv, Option.some.injEq] at hf
  subst hf
  simp only [fetchTag, streamTurn, decodeFilterTag]
  split
  · exact filterRow_nextRow predNone hv
  · exact filterRow_nextRow predSub hv
  · exact filterRow_nextRow predUp hv
  · exact filterRow_nextRow predAverage hv
  · exact filterRow_nextRow predPaeth hv
  · exact ⟨_, rfl, .inl rfl⟩

/-- `DEFILTER` with a turn allowed for every row left runs to its end. -/
theorem runStream_rows_rests {n : Nat} (h : Inv s) (hv : s.work.level = .ftag) (hn : nRows s ≤ s.work.row + n) :
    Rests (runStream n s) := by
  induction n generalizing s with
  | zero =>
    obtain ⟨-, -, -, hrow, -⟩ := h.level_ftag hv
    exact absurd hrow (Nat.not_lt.2 hn)
  | succ n ih =>
    obtain ⟨r, hf⟩ := fetch_of_running (s := s) (by simp [hv])
    obtain ⟨t, ht, hnext⟩ := streamTurn_nextRow hf hv
    obtain ⟨_, hu, hinv, -⟩ := streamTurn_lands h hf
    cases ht.symm.trans hu
    simp only [runStream, hf, ht]
    rcases hnext with hover | ⟨hvt, hrow, hrows⟩
    · exact ⟨t, runStream_over n hover, hover, hinv⟩
    · exact ih hinv hvt (by omega)

/-- What the operand checks of `DEFILTER` leave (R360). -/
theorem defilterCheck_none (hc : defilterCheck s = none) :
    1 ≤ rowBytes s ∧ 1 ≤ channels s ∧ nRows s * rowBytes s ≤ s.olen.toNat ∧
      nRows s * rowWidth s ≤ s.params.rbufCap := by
  unfold defilterCheck at hc
  split at hc
  · cases hc
  split at hc
  · cases hc
  split at hc
  · cases hc
  · omega

theorem execDefilter_rests (h : Inv s) (ha : s.atHost) : Rests (execDefilter s) := by
  unfold execDefilter
  split
  · exact ⟨s, rfl, ha, h⟩
  rename_i hs
  cases hc : defilterCheck s with
  | some k => exact rests_raise h.sound (h.work_idle ha) k
  | none =>
    obtain ⟨hbytes, hchannels, hin, hout⟩ := defilterCheck_none hc
    dsimp only
    split
    · exact ⟨_, rfl, rfl, h.sound.inv_completeDefilter hout⟩
    · have hrows : Inv (enterRows s) := {
        params := h.params
        ranges := { h.ranges with err := by simp [h.err_zero hs] }
        memories := { h.memories with }
        slots := { h.slots with }
        level := ⟨rfl, hbytes, hchannels, Nat.pos_of_ne_zero ‹_›, hin, hout⟩ }
      exact runStream_rows_rests hrows rfl (Nat.le_add_left _ _)

/-! ### Every command -/

theorem exec_rests {i : Instr} (hi : i.format = .cmd) (h : Inv s) (ha : s.atHost) : Rests (exec i s) := by
  cases i with
  | nop => exact command_rests h ha (rests_complete h.sound (h.work_idle ha))
  | reset => exact execReset_rests h
  | clr => exact execClr_rests h ha
  | brInit => exact execBrInit_rests h ha
  | brRead => exact execBrRead_rests h ha
  | brReadRev => exact execBrReadRev_rests h ha
  | brRemaining => exact execBrRemaining_rests h ha
  | htBuild => exact execHtBuild_rests h ha
  | htDecode => exact execHtDecode_rests h ha
  | inflate => exact exec_inflate_rests h ha
  | obSetlen => exact execObSetlen_rests h ha
  | crcCompute => exact execCrcCompute_rests h ha
  | crcCheck => exact execCrcCheck_rests h ha
  | defilter => exact execDefilter_rests h ha
  | cmdIllegal => exact command_rests h ha (rests_raise h.sound (h.work_idle ha) _)
  | _ => exact absurd hi nofun

end

/-- Settles O2: after reset every register is 0, no cell is listed and no slot holds a table. -/
theorem resetMeetsInvariant : Obligations.ResetMeetsInvariant :=
  inv_resetRegisters (s := State.reset) (by decide) ⟨.nil, .nil, .nil, .nil, nofun, nofun, nofun, nofun⟩
    (.none _) (.none _) (.none _)

/-- Settles O7: the invariant after every command, and what it says at the host's turn. -/
theorem commandsKeepInvariant : Obligations.CommandsKeepInvariant := by
  refine ⟨resetMeetsInvariant.ranges, resetMeetsInvariant.not_busy rfl, fun i s hi h ha => ?_⟩
  obtain ⟨t, ht, hover, hinv⟩ := exec_rests hi h ha
  exact ⟨t, ht, hinv, hinv.ranges, hinv.not_busy hover⟩

/-! ## The host's turn -/

section
variable {s t : State}

/-- The invariant reads neither `CMD` nor the host's port. -/
theorem Inv.setPort (h : Inv s) (op : BitVec 8) (rest : List HostAccess) (v : Word) :
    Inv { s with cmd := op, pending := rest, hostData := v } where
  params := h.params
  ranges := { h.ranges with }
  memories := { h.memories with }
  slots := { h.slots with }
  level := h.level

theorem Inv.setPending (h : Inv s) (rest : List HostAccess) : Inv { s with pending := rest } :=
  h.setPort s.cmd rest s.hostData

theorem Inv.setHostData (h : Inv s) (v : Word) : Inv { s with hostData := v } := h.setPort s.cmd s.pending v

theorem latchCommand_inv (h : Inv s) (op : BitVec 8) : Inv (latchCommand op s) := by
  unfold latchCommand
  split
  · exact h
  · exact h.setPort op s.pending s.hostData

theorem latchCommand_atHost (h : s.atHost) (op : BitVec 8) : (latchCommand op s).atHost := by
  unfold latchCommand
  split <;> exact h

/-- With no command running the invariant does not read the argument registers. -/
theorem Inv.setArgs (h : Inv s) (ha : s.atHost) (a b c : Word) : Inv { s with arg0 := a, arg1 := b, arg2 := c } where
  params := h.params
  ranges := { h.ranges with }
  memories := { h.memories with }
  slots := { h.slots with }
  level := levelOk_atHost (h.work_idle ha) (h.not_busy ha)

/-- A host write to a register other than `CMD` sets the argument register of its index, or nothing (R37). -/
theorem writeRegister_eq (index : Nat) (v : Word) (s : State) :
    writeRegister index v s = { s with
      arg0 := if index = 4 then v else s.arg0
      arg1 := if index = 5 then v else s.arg1
      arg2 := if index = 6 then v else s.arg2 } := by
  unfold writeRegister
  split <;> simp_all

/-- A host read of a register looks it up in the map written as a list (R37). -/
theorem readRegister_eq (index : Nat) (s : State) :
    readRegister index s = BitVec.ofNat 32 (([0, s.status.code.toNat, s.err.toNat, s.warn.toNat, s.arg0.toNat,
      s.arg1.toNat, s.arg2.toNat, s.res0.toNat, s.brLen.toNat, s.brPos.toNat, s.brOrder.toNat,
      s.olen.toNat, s.rlen.toNat, s.zhdr.toNat, s.htValid.toNat] : List Nat).getD index 0) := by
  rcases Nat.lt_or_ge index 15 with h | h
  · interval_cases index <;> simp [readRegister]
  · obtain ⟨n, rfl⟩ := Nat.exists_eq_add_of_le' h
    rfl

/-- What a host write to a cell can change: `IBUF`, `OBUF` and `LENS` (R30 to R33). -/
theorem writeSpace_state (sp : Space) (a : Nat) (v : Byte) (s : State) :
    writeSpace sp a v s = { s with
      ibuf := (writeSpace sp a v s).ibuf, obuf := (writeSpace sp a v s).obuf, lens := (writeSpace sp a v s).lens } := by
  cases sp <;> rfl

theorem writeSpace_sound {sp : Space} {a : Nat} (h : Sound s) (hin : a < sp.size s.params) (v : Byte) :
    Sound (writeSpace sp a v s) := by
  cases sp with
  | ibuf => exact h.setIbuf (Memory.set_wf h.memories.ibufWf a v) (Memory.set_within h.memories.ibufIn hin v)
  | obuf => exact h.setObuf (Memory.set_wf h.memories.obufWf a v) (Memory.set_within h.memories.obufIn hin v)
  | rbuf => exact h
  | lens => exact h.setLens (Memory.set_wf h.memories.lensWf a _) (Memory.set_within h.memories.lensIn hin _)

theorem writeSpace_inv {sp : Space} {a : Nat} (h : Inv s) (ha : s.atHost) (hin : a < sp.size s.params) (v : Byte) :
    Inv (writeSpace sp a v s) := by
  have hsound := writeSpace_sound h.sound hin v
  rw [writeSpace_state] at hsound ⊢
  exact hsound.inv h.ranges.err (levelOk_atHost (h.work_idle ha) (h.not_busy ha))

/-- Hardware reset: the registers as `RESET` leaves them, over memories and slots with nothing specified (R450). -/
theorem hardwareReset_inv (h : Inv s) : Inv (hardwareReset s) :=
  inv_resetRegisters
    (s := { s with
      ibuf := Memory.unspecified s.freeCtr, obuf := Memory.unspecified (s.freeCtr + 1)
      rbuf := Memory.unspecified (s.freeCtr + 2), lens := Memory.unspecified (s.freeCtr + 3)
      slotCL := none, slotLL := none, slotD := none, freeCtr := s.freeCtr + 4 })
    h.params ⟨.nil, .nil, .nil, .nil, nofun, nofun, nofun, nofun⟩ (.none _) (.none _) (.none _)

theorem hostAccess_inv {a : HostAccess} (h : Inv s) (ha : s.atHost) (he : hostAccess a s = .next t) : Inv t := by
  cases a with
  | writeReg index v =>
    cases he
    rw [writeRegister_eq]
    exact h.setArgs ha _ _ _
  | readReg index =>
    cases he
    exact h.setHostData _
  | writeCell sp a v =>
    rw [hostAccess] at he
    split at he <;> cases he
    exact writeSpace_inv h ha ‹_› v
  | readCell sp a =>
    rw [hostAccess] at he
    split at he <;> cases he
    exact h.setHostData _
  | hardwareReset =>
    cases he
    exact hardwareReset_inv h

theorem hostTurn_inv (h : Inv s) (ha : s.atHost) (ht : hostTurn s = .next t) : Inv t := by
  unfold hostTurn at ht
  split at ht
  · cases ht
    exact h
  · rename_i v rest _
    have hlatched := latchCommand_inv (h.setPending rest) (v.setWidth 8)
    obtain ⟨_, hu, -, hinv⟩ := exec_rests (decodeCommand_format (v.setWidth 8)) hlatched
      (latchCommand_atHost (s := { s with pending := rest }) ha _)
    cases ht.symm.trans hu
    exact hinv
  · rename_i rest _ _
    exact hostAccess_inv (h.setPending rest) ha ht

end

/-- Settles O58: a turn of the running command, or the host's turn. -/
theorem stepKeepsInvariant : Obligations.StepKeepsInvariant := by
  intro s t h ht
  cases hf : fetch s with
  | none =>
    have ha := fetch_none.1 hf
    exact hostTurn_inv h ha (step_atHost ha ▸ ht)
  | some r =>
    obtain ⟨_, hu, hinv, -⟩ := streamTurn_lands h hf
    rw [step_of_fetch hf] at ht
    cases ht.symm.trans hu
    exact hinv

/-! ## What stops the machine (R34, R420) -/

theorem execInflate_next (s : State) : ∃ t, execInflate s = .next t := by
  unfold execInflate
  split
  · exact ⟨_, rfl⟩
  split
  · exact ⟨_, rfl⟩
  split
  · exact runStream_next _ _
  · exact ⟨_, rfl⟩

theorem execDefilter_next (s : State) : ∃ t, execDefilter s = .next t := by
  unfold execDefilter
  split
  · exact ⟨_, rfl⟩
  split
  · exact ⟨_, rfl⟩
  split
  · exact ⟨_, rfl⟩
  · exact runStream_next _ _

/-- Every instruction gives a next state. -/
theorem exec_next (i : Instr) (s : State) : ∃ t, exec i s = .next t := by
  by_cases hi : i.format = .cmd
  · cases i with
    | inflate => exact execInflate_next s
    | defilter => exact execDefilter_next s
    | nop | reset | clr | brInit | brRead | brReadRev | brRemaining | htBuild | htDecode | obSetlen | crcCompute
    | crcCheck | cmdIllegal => exact ⟨_, rfl⟩
    | _ => exact absurd hi nofun
  · rw [exec_eq_streamExec hi]
    exact streamExec_next i s

/-- A host access gives a next state, or faults on a cell that does not exist. -/
theorem hostAccess_cases (a : HostAccess) (s : State) :
    (∃ t, hostAccess a s = .next t) ∨
    ∃ sp addr, hostAccess a s = .fault (.noSuchCell sp addr) ∧ sp.size s.params ≤ addr ∧
      ((∃ v, a = .writeCell sp addr v) ∨ a = .readCell sp addr) := by
  cases a with
  | writeReg | readReg | hardwareReset => exact .inl ⟨_, rfl⟩
  | writeCell sp addr v =>
    rw [hostAccess]
    split
    · exact .inl ⟨_, rfl⟩
    · exact .inr ⟨sp, addr, rfl, Nat.not_lt.1 ‹_›, .inl ⟨v, rfl⟩⟩
  | readCell sp addr =>
    rw [hostAccess]
    split
    · exact .inl ⟨_, rfl⟩
    · exact .inr ⟨sp, addr, rfl, Nat.not_lt.1 ‹_›, .inr rfl⟩

/-- A step gives a next state, or is a host access to a cell that does not exist. -/
theorem step_cases (s : State) :
    (∃ t, step s = .next t) ∨
    s.atHost ∧ ∃ sp a rest, step s = .fault (.noSuchCell sp a) ∧ sp.size s.params ≤ a ∧
      ((∃ v, s.pending = .writeCell sp a v :: rest) ∨ s.pending = .readCell sp a :: rest) := by
  cases hf : fetch s with
  | some r =>
    rw [step_of_fetch hf]
    exact .inl (streamTurn_next r)
  | none =>
    have ha := fetch_none.1 hf
    rw [step_atHost ha]
    unfold hostTurn
    split
    · exact .inl ⟨_, rfl⟩
    · exact .inl (exec_next _ _)
    · rename_i a rest _ hp
      rcases hostAccess_cases a { s with pending := rest } with hnext | ⟨sp, addr, he, hout, hcell⟩
      · exact .inl hnext
      · refine .inr ⟨ha, sp, addr, rest, he, hout, ?_⟩
        rw [hp]
        exact hcell.imp (fun ⟨v, hv⟩ => ⟨v, by rw [hv]⟩) fun hv => by rw [hv]

section
variable {s : State} {sp : Space} {a : Nat} {v : Byte} {rest : List HostAccess}

/-- The step of a host access other than a write to `CMD`. -/
theorem step_hostAccess {x : HostAccess} (h : s.atHost) (hp : s.pending = x :: rest)
    (hx : ∀ v, x ≠ .writeReg 0 v) : step s = hostAccess x { s with pending := rest } := by
  rw [step_atHost h, hostTurn, hp]
  split
  · contradiction
  · rename_i heq
    cases heq
    exact absurd rfl (hx _)
  · rename_i heq
    cases heq
    rfl

theorem step_writeCell (h : s.atHost) (hp : s.pending = .writeCell sp a v :: rest) (hin : a < sp.size s.params) :
    step s = .next (writeSpace sp a v { s with pending := rest }) := by
  rw [step_hostAccess h hp nofun]
  exact if_pos hin

theorem step_writeCell_fault (h : s.atHost) (hp : s.pending = .writeCell sp a v :: rest)
    (hout : sp.size s.params ≤ a) : step s = .fault (.noSuchCell sp a) := by
  rw [step_hostAccess h hp nofun]
  exact if_neg (Nat.not_lt.2 hout)

theorem step_readCell (h : s.atHost) (hp : s.pending = .readCell sp a :: rest) (hin : a < sp.size s.params) :
    step s = .next { s with pending := rest, hostData := readSpace sp a s } := by
  rw [step_hostAccess h hp nofun]
  exact if_pos hin

theorem step_readCell_fault (h : s.atHost) (hp : s.pending = .readCell sp a :: rest)
    (hout : sp.size s.params ≤ a) : step s = .fault (.noSuchCell sp a) := by
  rw [step_hostAccess h hp nofun]
  exact if_neg (Nat.not_lt.2 hout)

end

/-- Settles O59: every instruction gives a next state, so a step stops only in the host's own accesses. -/
theorem onlyHostStops : Obligations.OnlyHostStops := by
  refine ⟨exec_next, fun s r hr => ?_, fun s f => ⟨fun hf => ?_, ?_⟩⟩
  · rcases step_cases s with ⟨t, ht⟩ | ⟨-, sp, a, rest, ht, -⟩ <;> simp [ht] at hr
  · rcases step_cases s with ⟨t, ht⟩ | ⟨ha, sp, a, rest, ht, hcell⟩ <;> rw [ht] at hf <;> cases hf
    exact ⟨ha, sp, a, rest, rfl, hcell⟩
  · rintro ⟨ha, sp, a, rest, rfl, hout, ⟨v, hp⟩ | hp⟩
    · exact step_writeCell_fault ha hp hout
    · exact step_readCell_fault ha hp hout

/-! ## Reset and the host's port -/

theorem resetRegisters_registersAtReset (s : State) : RegistersAtReset (resetRegisters s) :=
  ⟨rfl, rfl, rfl, ⟨rfl, rfl, rfl⟩, rfl, ⟨rfl, rfl, rfl⟩, rfl, rfl, rfl, rfl⟩

/-- Settles O1: an empty reader has no bit, and hardware reset is `RESET` over unspecified memories. -/
theorem resetValues : Obligations.ResetValues := by
  have hempty {n : Nat} (hn : 0 < n) : remainingBits State.reset < n := hn
  refine ⟨resetRegisters_registersAtReset State.reset, fun _ => rfl, fun _ => rfl, fun _ => rfl, fun _ => rfl, rfl,
    fun n hn => ⟨readCode_of_lt (hempty hn), readReversed_of_lt (hempty hn)⟩, rfl, fun s => ?_⟩
  have hregs := resetRegisters_registersAtReset s
  exact ⟨hardwareReset s, rfl, { hregs with }, fun _ => rfl, fun _ => rfl, fun _ => rfl, fun _ => rfl⟩

/-- Settles O56: the step of a register access, by what it writes and what it returns. -/
theorem registerMap : Obligations.RegisterMap := by
  intro s v index rest ha
  refine ⟨fun hindex hp => ?_, fun hp => ?_⟩
  · rw [step_hostAccess ha hp (by simp [hindex]), hostAccess, writeRegister_eq]
  · rw [step_hostAccess ha hp nofun, hostAccess, readRegister_eq]

/-- Settles O57: the step of a cell access, by what it writes and what it returns in each memory. -/
theorem hostMemoryAccess : Obligations.HostMemoryAccess := by
  refine ⟨fun s sp a v rest ha hp => ⟨step_writeCell_fault ha hp, fun hin => ?_⟩,
    fun s sp a rest ha hp => ⟨step_readCell_fault ha hp, fun hin => ?_⟩⟩
  · refine ⟨_, step_writeCell ha hp hin, writeSpace_state .., ?_⟩
    cases sp <;> simp [writeSpace, Memory.get_set, eq_comm]
  · refine ⟨_, step_readCell ha hp hin, rfl, ?_, ?_, ?_, ?_⟩ <;> rintro rfl <;>
      exact BitVec.toNat_setWidth_of_le (by decide)

end Sys2Proof.Machine

/-! ## The decoder and the encoder (R122)

What each format's decoder gives is well-formed and encodes to the word it was given. In the other direction only the
rows that hold a number of their own need a fact about a decoder. -/

namespace Sys2Proof

open Machine

/-! ### What the decoder of each format gives -/

theorem decodeCommand_wf (op : BitVec 8) : (decodeCommand op).wf = true := by
  unfold decodeCommand
  split
  case h_15 => simp_all [Instr.wf, definedOpcodes]
  all_goals rfl

theorem encode_decodeCommand (op : BitVec 8) : encode (decodeCommand op) = op.toNat := by
  unfold decodeCommand
  split <;> simp only [encode, *]

theorem toNat_getLsbD_zero {w : Nat} (v : BitVec w) : (v.getLsbD 0).toNat = v.toNat % 2 := by
  rw [BitVec.getLsbD, Nat.toNat_testBit, Nat.pow_zero, Nat.div_one]

theorem decodeBlockHeader_wf (h : BitVec 3) : (decodeBlockHeader h).wf = true := by
  unfold decodeBlockHeader
  split <;> rfl

/-- A header number is its low bit, `BFINAL`, and twice the rest, `BTYPE` (R104). -/
theorem encode_decodeBlockHeader (h : BitVec 3) : encode (decodeBlockHeader h) = h.toNat := by
  have hlt : h.toNat < 8 := h.isLt
  unfold decodeBlockHeader
  split <;> simp only [encode, toNat_getLsbD_zero, imp_false] at * <;> omega

theorem decodeLengthSymbol_wf {sym : BitVec 9} (h : 256 ≤ sym.toNat) : (decodeLengthSymbol sym).wf = true := by
  unfold decodeLengthSymbol
  split
  case h_33 => simp only [Instr.wf, decide_eq_true_eq, imp_false] at *; omega
  all_goals rfl

theorem encode_decodeLengthSymbol (sym : BitVec 9) : encode (decodeLengthSymbol sym) = sym.toNat := by
  unfold decodeLengthSymbol
  split <;> simp only [encode, *]

theorem decodeLitLen_wf (sym : BitVec 9) : (decodeLitLen sym).wf = true := by
  unfold decodeLitLen
  split
  · rfl
  · exact decodeLengthSymbol_wf (by omega)

theorem encode_decodeLitLen (sym : BitVec 9) : encode (decodeLitLen sym) = sym.toNat := by
  unfold decodeLitLen
  split
  · exact (BitVec.toNat_setWidth ..).trans (Nat.mod_eq_of_lt ‹_›)
  · exact encode_decodeLengthSymbol sym

theorem decodeDistance_wf (sym : BitVec 5) : (decodeDistance sym).wf = true := by
  unfold decodeDistance
  split <;> rfl

/-- The last row holds the numbers 30 and 31 by their low bit (R256). -/
theorem encode_decodeDistance (sym : BitVec 5) : encode (decodeDistance sym) = sym.toNat := by
  have hlt : sym.toNat < 32 := sym.isLt
  unfold decodeDistance
  split
  case h_31 => simp only [encode, toNat_getLsbD_zero, imp_false] at *; omega
  all_goals simp only [encode, *]

theorem decodeCodeLength_wf (sym : BitVec 5) : (decodeCodeLength sym).wf = true := by
  unfold decodeCodeLength
  split
  · rfl
  · split
    case h_4 => simp only [Instr.wf, decide_eq_true_eq, imp_false] at *; omega
    all_goals rfl

theorem encode_decodeCodeLength (sym : BitVec 5) : encode (decodeCodeLength sym) = sym.toNat := by
  unfold decodeCodeLength
  split
  · exact (BitVec.toNat_setWidth ..).trans (Nat.mod_eq_of_lt ‹_›)
  · split <;> simp only [encode, *]

theorem decodeFilterTag_wf (tag : BitVec 8) : (decodeFilterTag tag).wf = true := by
  unfold decodeFilterTag
  split
  case h_6 => simp only [Instr.wf, decide_eq_true_eq, imp_false] at *; omega
  all_goals rfl

theorem encode_decodeFilterTag (tag : BitVec 8) : encode (decodeFilterTag tag) = tag.toNat := by
  unfold decodeFilterTag
  split <;> simp only [encode, *]

/-! ### The words of a format -/

@[simp] theorem decode_cmd (op : BitVec 8) : decode .cmd op.toNat = .ok (decodeCommand op) := by
  simp [decode, Format.bits, op.isLt]

@[simp] theorem decode_blkhdr (h : BitVec 3) : decode .blkhdr h.toNat = .ok (decodeBlockHeader h) := by
  simp [decode, Format.bits, h.isLt]

@[simp] theorem decode_llsym (sym : BitVec 9) : decode .llsym sym.toNat = .ok (decodeLitLen sym) := by
  simp [decode, Format.bits, sym.isLt]

@[simp] theorem decode_dsym (sym : BitVec 5) : decode .dsym sym.toNat = .ok (decodeDistance sym) := by
  simp [decode, Format.bits, sym.isLt]

@[simp] theorem decode_clsym (sym : BitVec 5) : decode .clsym sym.toNat = .ok (decodeCodeLength sym) := by
  simp [decode, Format.bits, sym.isLt]

@[simp] theorem decode_ftag (tag : BitVec 8) : decode .ftag tag.toNat = .ok (decodeFilterTag tag) := by
  simp [decode, Format.bits, tag.isLt]

theorem decode_tooWide {f : Format} {w : Nat} (h : 2 ^ f.bits ≤ w) : decode f w = .error (.tooWide f w) :=
  if_neg (Nat.not_lt.2 h)

/-- Every word of a format is the word of a well-formed instruction of that format. -/
theorem decode_of_lt {f : Format} {w : Nat} (h : w < 2 ^ f.bits) :
    ∃ i, decode f w = .ok i ∧ i.wf = true ∧ i.format = f ∧ encode i = w := by
  obtain ⟨v, rfl⟩ : ∃ v : BitVec f.bits, v.toNat = w := ⟨BitVec.ofNatLT w h, rfl⟩
  cases f with
  | cmd => exact ⟨_, decode_cmd v, decodeCommand_wf v, decodeCommand_format v, encode_decodeCommand v⟩
  | blkhdr =>
    exact ⟨_, decode_blkhdr v, decodeBlockHeader_wf v, decodeBlockHeader_format v, encode_decodeBlockHeader v⟩
  | llsym => exact ⟨_, decode_llsym v, decodeLitLen_wf v, decodeLitLen_format v, encode_decodeLitLen v⟩
  | dsym => exact ⟨_, decode_dsym v, decodeDistance_wf v, decodeDistance_format v, encode_decodeDistance v⟩
  | clsym =>
    exact ⟨_, decode_clsym v, decodeCodeLength_wf v, decodeCodeLength_format v, encode_decodeCodeLength v⟩
  | ftag => exact ⟨_, decode_ftag v, decodeFilterTag_wf v, decodeFilterTag_format v, encode_decodeFilterTag v⟩

theorem lt_of_decode_ok {f : Format} {w : Nat} {i : Instr} (h : decode f w = .ok i) : w < 2 ^ f.bits := by
  by_contra hw
  rw [decode_tooWide (Nat.not_lt.1 hw)] at h
  cases h

/-- What a word decodes to is well-formed, of the word's format, and encodes to the word. -/
theorem decode_ok {f : Format} {w : Nat} {i : Instr} (h : decode f w = .ok i) :
    i.wf = true ∧ i.format = f ∧ encode i = w := by
  obtain ⟨j, hj, hrest⟩ := decode_of_lt (lt_of_decode_ok h)
  cases hj.symm.trans h
  exact hrest

/-! ### The words of the instructions -/

theorem decodeCommand_cmdIllegal {op : BitVec 8} (h : (Instr.cmdIllegal op).wf = true) :
    decodeCommand op = .cmdIllegal op := by
  unfold decodeCommand
  split
  case h_15 => rfl
  all_goals simp_all [Instr.wf, definedOpcodes]

theorem decodeLitLen_lit (v : BitVec 8) : decodeLitLen (v.setWidth 9) = .lit v := by
  have hv : (v.setWidth 9).toNat < 256 := by
    rw [BitVec.toNat_setWidth_of_le (by decide)]
    exact v.isLt
  rw [decodeLitLen, if_pos hv, BitVec.setWidth_setWidth_of_le _ (by decide), BitVec.setWidth_eq]

theorem decodeLitLen_llUnreachable {sym : BitVec 9} (h : (Instr.llUnreachable sym).wf = true) :
    decodeLitLen sym = .llUnreachable sym := by
  simp only [Instr.wf, decide_eq_true_eq] at h
  rw [decodeLitLen, if_neg (by omega)]
  unfold decodeLengthSymbol
  split
  case h_33 => rfl
  all_goals omega

theorem decodeCodeLength_clLen (v : BitVec 4) : decodeCodeLength (v.setWidth 5) = .clLen v := by
  have hv : (v.setWidth 5).toNat < 16 := by
    rw [BitVec.toNat_setWidth_of_le (by decide)]
    exact v.isLt
  rw [decodeCodeLength, if_pos hv, BitVec.setWidth_setWidth_of_le _ (by decide), BitVec.setWidth_eq]

theorem decodeCodeLength_clUnreachable {sym : BitVec 5} (h : (Instr.clUnreachable sym).wf = true) :
    decodeCodeLength sym = .clUnreachable sym := by
  simp only [Instr.wf, decide_eq_true_eq] at h
  rw [decodeCodeLength, if_neg (by omega)]
  split
  case h_4 => rfl
  all_goals omega

theorem decodeFilterTag_ftIllegal {tag : BitVec 8} (h : (Instr.ftIllegal tag).wf = true) :
    decodeFilterTag tag = .ftIllegal tag := by
  simp only [Instr.wf, decide_eq_true_eq] at h
  unfold decodeFilterTag
  split
  case h_6 => rfl
  all_goals omega

/-- The word of a well-formed instruction decodes to it, in the instruction's format. -/
theorem decode_encode {i : Instr} (h : i.wf = true) : decode i.format (encode i) = .ok i := by
  cases i with
  | cmdIllegal op => exact (decode_cmd op).trans (congrArg _ (decodeCommand_cmdIllegal h))
  | blkStored f | blkFixed f | blkDynamic f | blkReserved f | dInvalid f => cases f <;> rfl
  | lit v =>
    have hword := decode_llsym (v.setWidth 9)
    rwa [BitVec.toNat_setWidth_of_le (by decide), decodeLitLen_lit] at hword
  | llUnreachable sym => exact (decode_llsym sym).trans (congrArg _ (decodeLitLen_llUnreachable h))
  | clLen v =>
    have hword := decode_clsym (v.setWidth 5)
    rwa [BitVec.toNat_setWidth_of_le (by decide), decodeCodeLength_clLen] at hword
  | clUnreachable sym => exact (decode_clsym sym).trans (congrArg _ (decodeCodeLength_clUnreachable h))
  | ftIllegal tag => exact (decode_ftag tag).trans (congrArg _ (decodeFilterTag_ftIllegal h))
  | _ => rfl

/-- Settles O54: a word that did not fit its format would not have decoded. -/
theorem encodeDecode : Obligations.EncodeDecode :=
  ⟨fun _ h => ⟨lt_of_decode_ok (decode_encode h), decode_encode h⟩, fun _ _ => decode_of_lt,
    fun _ _ => decode_tooWide⟩

/-- Settles O53: each word is the encoding of the instruction. -/
theorem wordsDecode : Obligations.WordsDecode :=
  ⟨decode_encode (i := .inflate) rfl, decode_encode (i := .cmdIllegal 0b00000011#8) rfl,
    decode_encode (i := .blkFixed true) rfl, decode_encode (i := .lit 97#8) rfl, decode_encode (i := .eob) rfl,
    decode_encode (i := .len285) rfl, decode_encode (i := .dist29) rfl, decode_encode (i := .clZrep11) rfl,
    decode_encode (i := .ftPaeth) rfl⟩

end Sys2Proof

/-! ## The symbol numbers no table produces (R122, R249, R257) -/

namespace Sys2Proof.Machine

/-! ### What a running command fetches -/

/-- The numbers a fetch can meet in each format: those of its words, and where the words outnumber the symbols, those
of the symbols (R41, R42). -/
def fetchedBelow : Format → Nat
  | .llsym => 288
  | .clsym => 19
  | f => 2 ^ f.bits

/-- A decoded symbol is one the slot has room for. -/
theorem decodeOne_lt {k size : Nat} {sym : BitVec 9} {s t : State} (hs : SlotOk size (slotTable k s))
    (h : decodeOne k s = .ok sym t) : sym.toNat < size := by
  rcases decodeOne_cases k s with ⟨tab, _, _, htab, -, -, ⟨e, he, hsym⟩, hd⟩ | ⟨_, hd⟩ <;>
    cases hd.symm.trans h
  obtain ⟨-, hentries⟩ := hs tab htab
  obtain ⟨-, -, hlt⟩ := hentries e he
  exact hsym ▸ hlt

/-- Under the invariant a fetched instruction is what the decoder gives for a number its level can meet. -/
theorem fetch_decodes {s t : State} {i : Instr} (h : Inv s) (hf : fetch s = some (.ok i t)) :
    ∃ w, w < fetchedBelow s.work.level ∧ decode s.work.level w = .ok i := by
  unfold fetch at hf
  cases hl : s.work.level with
  | cmd => simp only [hl, reduceCtorEq] at hf
  | blkhdr =>
    simp only [hl, Option.some.injEq] at hf
    rcases fetchHeader_cases s with ⟨b, hb⟩ | ⟨_, hb⟩ <;> cases hb.symm.trans hf
    exact ⟨_, b.isLt, decode_blkhdr b⟩
  | llsym =>
    simp only [hl, Option.some.injEq, fetchLitLen, Res.andThen_eq_ok] at hf
    obtain ⟨sym, _, hd, ⟨⟩⟩ := hf
    have hlt : sym.toNat < 288 := decodeOne_lt (k := 1) h.slots.ll hd
    exact ⟨_, hlt, decode_llsym sym⟩
  | dsym =>
    simp only [hl, Option.some.injEq, fetchDistance] at hf
    split at hf
    all_goals
      obtain ⟨d, _, -, ⟨⟩⟩ := Res.andThen_eq_ok.1 hf
      exact ⟨_, BitVec.isLt _, decode_dsym _⟩
  | clsym =>
    simp only [hl, Option.some.injEq, fetchCodeLength, Res.andThen_eq_ok] at hf
    obtain ⟨sym, _, hd, ⟨⟩⟩ := hf
    have hlt : sym.toNat < 19 := decodeOne_lt (k := 0) h.slots.cl hd
    refine ⟨_, ?_, decode_clsym (sym.setWidth 5)⟩
    rw [BitVec.toNat_setWidth]
    exact Nat.lt_of_le_of_lt (Nat.mod_le ..) hlt
  | ftag =>
    simp only [hl, Option.some.injEq, fetchTag] at hf
    cases hf
    exact ⟨_, BitVec.isLt _, decode_ftag _⟩

/-- A fetched instruction is a row of its format's table, and its word is a number the level can meet. -/
theorem fetch_wf {s t : State} {i : Instr} (h : Inv s) (hf : fetch s = some (.ok i t)) :
    i.wf = true ∧ encode i < fetchedBelow i.format := by
  obtain ⟨w, hlt, hd⟩ := fetch_decodes h hf
  obtain ⟨hwf, hformat, henc⟩ := decode_ok hd
  rw [hformat, henc]
  exact ⟨hwf, hlt⟩

/-! ### Code lengths before the end of their loop -/

/-- The two forms of an integer field's value agree (R101, R143). -/
theorem packInteger_eq_integerSum (s : State) (k n : Nat) : packInteger s k n = integerSum s k n := by
  induction n with
  | zero => rfl
  | succ n ih => rw [packInteger, ih, integerSum, integerSum, Finset.sum_range_succ]

theorem afterLengths_of_lt {s : State} (h : s.work.produced < s.work.hlit + s.work.hdist) :
    afterLengths s = .ok () s := if_pos h

/-- `emit` with lengths still to come writes `LENS` and counts (R249). -/
theorem emit_of_lt {v : Nibble} {r : Nat} {s : State} (h : s.work.produced + r < s.work.hlit + s.work.hdist) :
    emit v r s = .ok () { s with
      lens := (fillLens s.work.produced v r s).lens
      work := { s.work with produced := s.work.produced + r } } := by
  rw [emit, if_neg (by omega), fillLens_state]
  exact afterLengths_of_lt h

/-- A repeated zero length whose extra field is there (R247, R248). -/
theorem zeroRepeat_of_le {extra : Nat} {s : State} (h : extra ≤ remainingBits s) (base : Nat) :
    zeroRepeat extra base s = emit 0 (base + integerSum s s.brPos.toNat extra) (advance extra s) := by
  rw [zeroRepeat, readReversed_of_le h, packInteger_eq_integerSum, Res.andThen_ok]

/-! ### The statement -/

/-- Settles O45: a fetched number lies below those of the unreachable rows; and what the two rows mean. -/
theorem unreachableSymbols : Obligations.UnreachableSymbols := by
  refine ⟨fun s t i hinv hf => ?_, fun s => ⟨fun sym => ?_, fun sym _ _ hbits => ?_⟩⟩
  · obtain ⟨hwf, hlt⟩ := fetch_wf hinv hf
    refine ⟨hwf, ?_, ?_⟩ <;> rintro sym rfl <;> exact absurd hlt (Nat.not_lt.2 (of_decide_eq_true hwf))
  · exact ⟨_, rfl, raiseInflate_afterInflateFault .invalidSymbol s⟩
  · intro r hr
    have hrun : exec (.clUnreachable sym) s = settleInflate (emit 0 r (advance 7 s)) :=
      congrArg settleInflate (zeroRepeat_of_le hbits 11)
    rw [emit_of_lt (s := advance 7 s) hr, settleInflate_ok] at hrun
    exact ⟨_, hrun, rfl, fun a => fillLens_get _ 0 r (advance 7 s) a⟩

end Sys2Proof.Machine

/-! ## The bit reader (R141 to R146, R388, R389)

The bits of a value read are the stream bits from the cursor on, in the order of the read. Each fact about a value is
one about its bits. -/

namespace Sys2Proof.Machine

section
variable {s : State} {k n : Nat}

/-! ### The stream bits in the two orders (R141) -/

theorem streamBit_lsbFirst (h : s.brOrder = 1) (k : Nat) :
    streamBit s k = (s.ibuf.get (k / 8)).getLsbD (k % 8) := if_pos h

theorem streamBit_msbFirst (h : s.brOrder = 0) (k : Nat) :
    streamBit s k = (s.ibuf.get (k / 8)).getLsbD (7 - k % 8) := if_neg (by simp [h])

/-- The stream bits of the byte at a byte boundary, least significant first. -/
theorem streamBit_byte_lsbFirst (h : s.brOrder = 1) (hk : k % 8 = 0) {i : Nat} (hi : i < 8) :
    streamBit s (k + i) = (s.ibuf.get (k / 8)).getLsbD i := by
  rw [streamBit_lsbFirst h, show (k + i) / 8 = k / 8 by omega, show (k + i) % 8 = i by omega]

/-- The stream bits of the byte at a byte boundary, most significant first. -/
theorem streamBit_byte_msbFirst (h : s.brOrder = 0) (hk : k % 8 = 0) {i : Nat} (hi : i < 8) :
    streamBit s (k + i) = (s.ibuf.get (k / 8)).reverse.getLsbD i := by
  rw [streamBit_msbFirst h, show (k + i) / 8 = k / 8 by omega, show (k + i) % 8 = i by omega,
    BitVec.getLsbD_reverse, BitVec.getMsbD_eq_getLsbD]
  simp [hi]

/-- A bit of a word as a number. -/
theorem toNat_getLsbD {w : Nat} (v : BitVec w) (i : Nat) : (v.getLsbD i).toNat = (v.toNat >>> i) % 2 := by
  rw [BitVec.getLsbD, Nat.toNat_testBit, Nat.shiftRight_eq_div_pow]

/-! ### The bits of the values read (R142, R143) -/

theorem testBit_packInteger (s : State) (k : Nat) {i : Nat} (h : i < n) :
    (packInteger s k n).testBit i = streamBit s (k + i) := by
  induction n with
  | zero => exact absurd h (Nat.not_lt_zero i)
  | succ n ih =>
    rw [packInteger, Nat.add_comm, Nat.mul_comm, Nat.testBit_two_pow_mul_add _ (packInteger_lt s k n)]
    split
    · exact ih ‹_›
    · obtain rfl : i = n := by omega
      rw [Nat.sub_self, Nat.testBit_bool_toNat, decide_eq_true rfl, Bool.true_and]

theorem testBit_packCode (s : State) (k : Nat) {i : Nat} (h : i < n) :
    (packCode s k n).testBit i = streamBit s (k + (n - 1 - i)) := by
  induction n generalizing i with
  | zero => exact absurd h (Nat.not_lt_zero i)
  | succ n ih =>
    have hbit : (streamBit s (k + n)).toNat < 2 ^ 1 := Bool.toNat_lt _
    rw [packCode, Nat.mul_comm, ← Nat.pow_one 2, Nat.testBit_two_pow_mul_add _ hbit]
    cases i with
    | zero =>
      rw [if_pos Nat.one_pos, Nat.testBit_bool_toNat, decide_eq_true rfl, Bool.true_and]
      rfl
    | succ i =>
      rw [if_neg (by omega), Nat.add_sub_cancel, ih (by omega), show n - 1 - i = n + 1 - 1 - (i + 1) by omega]

theorem getLsbD_packInteger (s : State) (k : Nat) {i : Nat} (h : i < n) :
    (BitVec.ofNat n (packInteger s k n)).getLsbD i = streamBit s (k + i) := by
  rw [BitVec.getLsbD_ofNat, testBit_packInteger s k h, decide_eq_true h, Bool.true_and]

theorem getMsbD_packCode (s : State) (k : Nat) {i : Nat} (h : i < n) :
    (BitVec.ofNat n (packCode s k n)).getMsbD i = streamBit s (k + i) := by
  have hi : n - 1 - i < n := by omega
  rw [BitVec.getMsbD_eq_getLsbD, BitVec.getLsbD_ofNat, testBit_packCode s k hi, decide_eq_true h, decide_eq_true hi,
    Bool.true_and, Bool.true_and, show n - 1 - (n - 1 - i) = i by omega]

/-- The two reads of `n` bits are reversals of each other (R145). -/
theorem packInteger_eq_reverse_packCode (s : State) (k n : Nat) :
    BitVec.ofNat n (packInteger s k n) = (BitVec.ofNat n (packCode s k n)).reverse :=
  BitVec.eq_of_getLsbD_eq fun i hi => by
    rw [getLsbD_packInteger s k hi, BitVec.getLsbD_reverse, getMsbD_packCode s k hi]

/-! ### Reads of a whole byte (R145) -/

theorem packInteger_byte_lsbFirst (h : s.brOrder = 1) (hk : k % 8 = 0) :
    BitVec.ofNat 8 (packInteger s k 8) = s.ibuf.get (k / 8) :=
  BitVec.eq_of_getLsbD_eq fun _ hi => by rw [getLsbD_packInteger s k hi, streamBit_byte_lsbFirst h hk hi]

theorem packInteger_byte_msbFirst (h : s.brOrder = 0) (hk : k % 8 = 0) :
    BitVec.ofNat 8 (packInteger s k 8) = (s.ibuf.get (k / 8)).reverse :=
  BitVec.eq_of_getLsbD_eq fun _ hi => by rw [getLsbD_packInteger s k hi, streamBit_byte_msbFirst h hk hi]

/-- The words the two reads of eight bits return, by the byte of the reversed one. -/
theorem wordsRead_of_byte {b : Byte} (h : BitVec.ofNat 8 (packInteger s k 8) = b) :
    BitVec.ofNat 32 (packInteger s k 8) = b.setWidth 32 ∧
      BitVec.ofNat 32 (packCode s k 8) = b.reverse.setWidth 32 := by
  have hcode : BitVec.ofNat 8 (packCode s k 8) = b.reverse := by
    rw [← h, packInteger_eq_reverse_packCode, BitVec.reverse_reverse_eq]
  rw [← hcode, ← h, BitVec.setWidth_ofNat_of_le_of_lt (by decide) (packInteger_lt s k 8),
    BitVec.setWidth_ofNat_of_le_of_lt (by decide) (packCode_lt s k 8)]
  exact ⟨rfl, rfl⟩

/-! ### The read commands (R388, R389) -/

/-- A command body is run outside `FAULT`. -/
theorem command_of_not_fault (h : s.status ≠ .fault) (body : State → State) : command s body = .next (body s) := by
  rw [command, if_neg h]

theorem exec_brRead_of_le (hs : s.status ≠ .fault) (hn : s.arg0.toNat ≤ 32) (hr : s.arg0.toNat ≤ remainingBits s) :
    exec .brRead s = .next (complete { advance s.arg0.toNat s with
      res0 := BitVec.ofNat 32 (packCode s s.brPos.toNat s.arg0.toNat) }) := by
  rw [exec, execBrRead, command_of_not_fault hs, if_neg (Nat.not_lt.2 hn), readCode_of_le hr, settleRead]

theorem exec_brReadRev_of_le (hs : s.status ≠ .fault) (hn : s.arg0.toNat ≤ 32)
    (hr : s.arg0.toNat ≤ remainingBits s) :
    exec .brReadRev s = .next (complete { advance s.arg0.toNat s with
      res0 := BitVec.ofNat 32 (packInteger s s.brPos.toNat s.arg0.toNat) }) := by
  rw [exec, execBrReadRev, command_of_not_fault hs, if_neg (Nat.not_lt.2 hn), readReversed_of_le hr, settleRead]

end

/-! ### The statements -/

/-- Settles O11: the bit of the `IBUF` cell in each order, as a number. -/
theorem streamBitFunction : Obligations.StreamBitFunction := by
  refine fun s k _ => ⟨fun h => ?_, fun h => ?_⟩
  · rw [streamBit_lsbFirst h, toNat_getLsbD]
  · rw [streamBit_msbFirst h, toNat_getLsbD]

/-- Settles O15: both reads complete, and their values by the reversal of the packed bits and, at a byte boundary, by
the byte itself. -/
theorem readsAreReversed : Obligations.ReadsAreReversed := by
  intro s hs _ hn hr
  refine ⟨_, _, exec_brRead_of_le hs hn hr, exec_brReadRev_of_le hs hn hr, rfl, ?_, fun h8 hk => ?_⟩
  · simpa only [complete, BitVec.setWidth_ofNat_of_le hn] using packInteger_eq_reverse_packCode s _ _
  · simp only [complete, h8]
    refine ⟨fun ho => wordsRead_of_byte (packInteger_byte_lsbFirst ho hk), fun ho => ?_⟩
    obtain ⟨hu, ht⟩ := wordsRead_of_byte (packInteger_byte_msbFirst ho hk)
    rw [BitVec.reverse_reverse_eq] at ht
    exact ⟨ht, hu⟩

end Sys2Proof.Machine

/-! ## The CRC-32 engine (R161, R162, R164, R165, R395, R396)

The register of R161 reversed is the register of R162, and there a step with no bit coming in is linear over XOR. A bit
that comes in on top is the lowest one 31 steps later, so it may as well be XORed into the lowest bit then: this is the
delay that the four zero bytes of R161 make up for. The register R161 begins with is the one its first 32 bits give from
a seed, the register that 32 steps with zero bits turn into the initial value of R162. -/

namespace Sys2Proof.Machine

/-! ### One bit of the reflected register -/

/-- `v` as the lowest bit of a register. -/
def lowBit (v : Bool) : Word := (BitVec.ofBool v).setWidth 32

theorem getLsbD_lowBit (v : Bool) (i : Nat) : (lowBit v).getLsbD i = (decide (i = 0) && v) := by
  by_cases h : i = 0 <;> simp [lowBit, h]

theorem shiftIn_eq (r : Word) (v : Bool) : shiftIn r v = r <<< 1 ||| lowBit v := rfl

/-- The bit step of the reflected form (R162). -/
def reflectedStep (c : Word) : Word := if c.getLsbD 0 then (c >>> 1) ^^^ 0xEDB88320#32 else c >>> 1

/-- The reflected step with a bit coming in on top: `crcStep` reversed. -/
def feedBit (c : Word) (v : Bool) : Word := reflectedStep c ^^^ lowBit v <<< 31

/-- The reflected step after a bit was XORed into the lowest one. -/
def absorbBit (c : Word) (v : Bool) : Word := reflectedStep (c ^^^ lowBit v)

theorem reflectedStep_xor (c d : Word) : reflectedStep (c ^^^ d) = reflectedStep c ^^^ reflectedStep d := by
  simp only [reflectedStep, BitVec.getLsbD_xor, BitVec.ushiftRight_xor_distrib]
  cases c.getLsbD 0 <;> cases d.getLsbD 0
  · rfl
  · exact BitVec.xor_assoc ..
  all_goals simp [BitVec.xor_assoc, BitVec.xor_comm (d >>> 1)]

theorem reflectedStep_iterate_xor (n : Nat) (c d : Word) :
    reflectedStep^[n] (c ^^^ d) = reflectedStep^[n] c ^^^ reflectedStep^[n] d := by
  induction n generalizing c d with
  | zero => rfl
  | succ n ih => simp only [Function.iterate_succ_apply, reflectedStep_xor, ih]

/-- A register may be XORed in by its lowest bit before the step and its other bits, moved down, after it. -/
theorem reflectedStep_xor_eq_absorbBit (c d : Word) :
    reflectedStep (c ^^^ d) = absorbBit c (d.getLsbD 0) ^^^ d >>> 1 := by
  rw [absorbBit, reflectedStep_xor, reflectedStep_xor, BitVec.xor_assoc]
  congr 1
  rw [reflectedStep]
  cases d.getLsbD 0 <;> simp +decide [lowBit, reflectedStep, BitVec.xor_comm]

/-! ### The register of R161 reversed -/

theorem reverse_xor {w : Nat} (x y : BitVec w) : (x ^^^ y).reverse = x.reverse ^^^ y.reverse := by
  ext i hi
  simp [BitVec.getElem_reverse]

theorem reverse_shiftIn (r : Word) (v : Bool) : (shiftIn r v).reverse = r.reverse >>> 1 ^^^ lowBit v <<< 31 := by
  refine BitVec.eq_of_getLsbD_eq fun i hi => ?_
  simp only [shiftIn_eq, BitVec.getLsbD_reverse, BitVec.getMsbD_eq_getLsbD, BitVec.getLsbD_or, BitVec.getLsbD_xor,
    BitVec.getLsbD_shiftLeft, BitVec.getLsbD_ushiftRight, getLsbD_lowBit]
  obtain hlow | rfl : i < 31 ∨ i = 31 := by omega
  · have hsub : 31 - i ≠ 0 ∧ 31 - i < 32 ∧ 1 + i < 32 ∧ 31 - (1 + i) = 31 - i - 1 := by omega
    simp [hi, hlow, hsub]
  · simp

theorem reverse_crcStep (r : Word) (v : Bool) : (crcStep r v).reverse = feedBit r.reverse v := by
  have hpoly : crcPoly.reverse = 0xEDB88320#32 := by decide +kernel
  rw [crcStep, feedBit, reflectedStep, ← BitVec.msb_reverse, BitVec.reverse_reverse_eq]
  split
  · rw [reverse_xor, reverse_shiftIn, hpoly, BitVec.xor_assoc, BitVec.xor_assoc, BitVec.xor_comm (lowBit v <<< 31)]
  · exact reverse_shiftIn r v

theorem reverse_foldl_crcStep (r : Word) (l : List Bool) :
    (l.foldl crcStep r).reverse = l.foldl feedBit r.reverse :=
  (List.foldl_hom BitVec.reverse fun r v => (reverse_crcStep r v).symm).symm

/-! ### The first 32 bits -/

theorem getLsbD_foldl_shiftIn (l : List Bool) {i : Nat} (h : l.length ≤ i) :
    (l.foldl shiftIn 0).getLsbD i = false := by
  induction l using List.reverseRecOn generalizing i with
  | nil => simp
  | append_singleton l v ih =>
    rw [List.length_append, List.length_singleton] at h
    have hi : i ≠ 0 := by omega
    rw [List.foldl_concat, shiftIn_eq, BitVec.getLsbD_or, BitVec.getLsbD_shiftLeft, getLsbD_lowBit,
      ih (by omega)]
    simp [hi]

/-- While the register fills from zero its top bit is clear, so the steps only shift. -/
theorem foldl_shiftIn_eq_foldl_crcStep (l : List Bool) (h : l.length ≤ 32) :
    l.foldl shiftIn 0 = l.foldl crcStep 0 := by
  induction l using List.reverseRecOn with
  | nil => rfl
  | append_singleton l v ih =>
    rw [List.length_append, List.length_singleton] at h
    have hmsb : (l.foldl shiftIn 0).msb = false := getLsbD_foldl_shiftIn l (by omega)
    rw [List.foldl_concat, List.foldl_concat, ← ih (by omega), crcStep, hmsb, if_neg Bool.false_ne_true]

theorem foldl_feedBit_xor (c d : Word) (l : List Bool) :
    l.foldl feedBit (c ^^^ d) = l.foldl feedBit c ^^^ reflectedStep^[l.length] d := by
  induction l generalizing c d with
  | nil => rfl
  | cons v l ih =>
    have hfeed : feedBit (c ^^^ d) v = feedBit c v ^^^ reflectedStep d := by
      rw [feedBit, feedBit, reflectedStep_xor, BitVec.xor_assoc, BitVec.xor_assoc, BitVec.xor_comm (reflectedStep d)]
    rw [List.foldl_cons, hfeed, ih, List.foldl_cons, List.length_cons, Function.iterate_succ_apply]

theorem foldl_feedBit_eq (c : Word) (l : List Bool) :
    l.foldl feedBit c = l.foldl feedBit 0 ^^^ reflectedStep^[l.length] c := by
  simpa using foldl_feedBit_xor 0 c l

/-- The register that 32 empty steps turn into the initial value of R162. -/
def reflectedSeed : Word := 0x9226F562#32

theorem reflectedStep_iterate_seed : reflectedStep^[32] reflectedSeed = 0xFFFFFFFF#32 := by decide +kernel

/-- The register R161 begins with, reversed. -/
theorem reverse_begun (l : List Bool) (h : l.length = 32) :
    (l.foldl shiftIn 0 ^^^ 0xFFFFFFFF#32).reverse = l.foldl feedBit reflectedSeed := by
  have hones : (0xFFFFFFFF#32).reverse = 0xFFFFFFFF#32 := by decide +kernel
  have hzero : (0 : Word).reverse = 0 := by decide +kernel
  rw [reverse_xor, hones, foldl_shiftIn_eq_foldl_crcStep l h.le, reverse_foldl_crcStep, hzero,
    foldl_feedBit_eq reflectedSeed, h, reflectedStep_iterate_seed]

/-! ### The delay of 32 bits -/

/-- A bit that came in on top is the lowest bit after 31 steps. -/
theorem reflectedStep_iterate_feedBit (c : Word) (v : Bool) :
    reflectedStep^[32] (feedBit c v) = absorbBit (reflectedStep^[32] c) v := by
  have hbit : reflectedStep^[32] (lowBit v <<< 31) = reflectedStep (lowBit v) := by cases v <;> decide +kernel
  rw [feedBit, absorbBit, reflectedStep_iterate_xor, reflectedStep_xor, hbit, ← Function.iterate_succ_apply,
    Function.iterate_succ_apply']

/-- Bits fed on top and then 32 zero bits are the bits absorbed without delay. -/
theorem foldl_feedBit_zeros (c : Word) (l : List Bool) :
    (l ++ List.replicate 32 false).foldl feedBit c = l.foldl absorbBit (reflectedStep^[32] c) := by
  have hzero : (List.replicate 32 false).foldl feedBit 0 = 0#32 := by decide +kernel
  rw [List.foldl_append, foldl_feedBit_eq _ (List.replicate 32 false), hzero, BitVec.zero_xor, List.length_replicate]
  exact (List.foldl_hom _ fun c v => (reflectedStep_iterate_feedBit c v).symm).symm

/-! ### Bytes -/

theorem messageBits_zeros (m : List Byte) :
    messageBits (m ++ [0, 0, 0, 0]) = messageBits m ++ List.replicate 32 false := by
  rw [messageBits, List.flatMap_append]
  rfl

/-- `n` steps with `d` XORed in: the low `n` bits of `d` absorbed one by one, and the others moved down. -/
theorem reflectedStep_iterate_xor_eq_foldl (n : Nat) (c d : Word) :
    reflectedStep^[n] (c ^^^ d) = ((List.range n).map d.getLsbD).foldl absorbBit c ^^^ d >>> n := by
  induction n with
  | zero => simp
  | succ n ih =>
    rw [Function.iterate_succ_apply', ih, reflectedStep_xor_eq_absorbBit, List.range_succ, List.map_append,
      List.foldl_append]
    simp [BitVec.shiftRight_add]

theorem repeat_eq_iterate {α : Type} (f : α → α) (n : Nat) (a : α) : Nat.repeat f n a = f^[n] a := by
  induction n with
  | zero => rfl
  | succ n ih => rw [Nat.repeat, ih, Function.iterate_succ_apply']

/-- The byte step of R162 absorbs the bits of the byte. -/
theorem repeat_reflectedStep_byte (c : Word) (b : Byte) :
    Nat.repeat reflectedStep 8 (c ^^^ b.setWidth 32) = (byteBits b).foldl absorbBit c := by
  have hbits : (List.range 8).map (b.setWidth 32).getLsbD = byteBits b :=
    List.map_congr_left fun i hi => by
      have hlt : i < 32 := Nat.lt_trans (List.mem_range.1 hi) (by decide)
      simp [hlt]
  have hhigh : b.setWidth 32 >>> 8 = 0#32 := by bv_omega
  rw [repeat_eq_iterate, reflectedStep_iterate_xor_eq_foldl, hbits, hhigh, BitVec.xor_zero]

/-- R162 absorbs the bits of the message one by one. -/
theorem crc32Reflected_eq_foldl (m : List Byte) :
    crc32Reflected m = (messageBits m).foldl absorbBit 0xFFFFFFFF#32 ^^^ 0xFFFFFFFF#32 := by
  rw [messageBits, List.foldl_flatMap]
  simp only [← repeat_reflectedStep_byte]
  rfl

/-- So does R161, read in the reversed register. -/
theorem crc32_eq_foldl (m : List Byte) :
    crc32 m = (messageBits m).foldl absorbBit 0xFFFFFFFF#32 ^^^ 0xFFFFFFFF#32 := by
  have hlen : ((messageBits (m ++ [0, 0, 0, 0])).take 32).length = 32 := by
    rw [messageBits_zeros, List.length_take, List.length_append, List.length_replicate]
    omega
  simp only [crc32]
  rw [reverse_foldl_crcStep, reverse_begun _ hlen, ← List.foldl_append, List.take_append_drop, messageBits_zeros,
    foldl_feedBit_zeros, reflectedStep_iterate_seed]

/-- Settles O18: both forms absorb the bits of the message into the same register. -/
theorem crcReflectedForm : Obligations.CrcReflectedForm := fun m => by
  rw [crc32_eq_foldl, crc32Reflected_eq_foldl]

/-! ### The commands -/

theorem toNat_bigEndian32 (m : Memory 8) (a : Nat) :
    (bigEndian32 m a).toNat = (m.get a).toNat * 2 ^ 24 + (m.get (a + 1)).toNat * 2 ^ 16 +
      (m.get (a + 2)).toNat * 2 ^ 8 + (m.get (a + 3)).toNat := by
  have happend {w : Nat} (x : BitVec w) (y : Byte) : (x ++ y).toNat = x.toNat * 2 ^ 8 + y.toNat := by
    rw [BitVec.toNat_append, ← Nat.shiftLeft_add_eq_or_of_lt y.isLt, Nat.shiftLeft_eq]
  simp only [bigEndian32, happend]
  omega

/-- Settles O16: the operand check and its two outcomes; the CRC of no bytes by the reflected form. -/
theorem crcComputeCommand : Obligations.CrcComputeCommand := by
  refine fun s hs => ⟨fun hn => ?_, fun hn => ?_, crcReflectedForm []⟩
  all_goals rw [exec, execCrcCompute, command_of_not_fault hs]
  · rw [if_pos hn]
    rfl
  · rw [if_neg (Nat.not_lt.2 hn)]
    rfl

/-- Settles O17: the operand check, and the comparison of words as one of their numbers. -/
theorem crcCheckCommand : Obligations.CrcCheckCommand := by
  refine fun s hs => ⟨fun hn => ?_, fun hn heq => ?_, fun hn hne => ?_⟩
  all_goals rw [exec, execCrcCheck, command_of_not_fault hs]
  · rw [if_pos hn]
    rfl
  · rw [← toNat_bigEndian32] at heq
    rw [if_neg (Nat.not_lt.2 hn)]
    exact congrArg _ (if_pos (BitVec.eq_of_toNat_eq heq))
  · rw [← toNat_bigEndian32] at hne
    rw [if_neg (Nat.not_lt.2 hn)]
    exact congrArg _ (if_neg (mt (congrArg _) hne))

end Sys2Proof.Machine

/-! ## The container (R176 to R181)

The bytes of a chunk begin a file's rest at places its length alone fixes, so the first chunk of that rest is the chunk
the bytes were written from, and what follows it is what followed the bytes. -/

namespace Sys2Proof.Machine

/-! ### Words in a byte sequence (R177) -/

/-- The big-endian bytes of a word. -/
def wordBytes (v : Word) : List Byte := [24, 16, 8, 0].map fun i => v.extractLsb' i 8

@[simp] theorem length_wordBytes (v : Word) : (wordBytes v).length = 4 := rfl

theorem be32_wordBytes_append (v : Word) (rest : List Byte) : be32 (wordBytes v ++ rest) 0 = v := by
  have hglue : v.extractLsb' 24 8 ++ v.extractLsb' 16 8 ++ v.extractLsb' 8 8 ++ v.extractLsb' 0 8 = v := by
    rw [BitVec.extractLsb'_append_extractLsb'_eq_extractLsb', BitVec.extractLsb'_append_extractLsb'_eq_extractLsb',
      BitVec.extractLsb'_append_extractLsb'_eq_extractLsb']
    · exact BitVec.extractLsb'_eq_self
    all_goals rfl
  exact hglue

/-- The word at a place is the first word of the bytes from there on. -/
theorem be32_eq_be32_drop (bytes : List Byte) (p : Nat) : be32 bytes p = be32 (bytes.drop p) 0 := by
  simp [be32, List.getD_eq_getElem?_getD]

/-! ### The chunk at the start (R177, R178) -/

/-- What makes a chunk's bytes tell where its fields stand: a four-byte tag, and a length that is the payload's and
fits its word. -/
structure Chunk.IsWhole (c : Chunk) : Prop where
  length_tag : c.tag.length = 4
  length_payload : c.payload.length = c.length
  length_lt : c.length < 2 ^ 32

theorem chunkBytes_append (c : Chunk) (rest : List Byte) :
    chunkBytes c ++ rest =
      wordBytes (BitVec.ofNat 32 c.length) ++ (c.tag ++ (c.payload ++ (wordBytes c.crc ++ rest))) := by
  simp only [chunkBytes, wordBytes, List.append_assoc]

theorem length_chunkBytes {c : Chunk} (h : c.IsWhole) : (chunkBytes c).length = 12 + c.length := by
  have hlen := congrArg List.length (chunkBytes_append c [])
  simp only [List.length_append, List.length_nil, length_wordBytes, h.length_tag, h.length_payload] at hlen
  omega

theorem firstChunk_chunkBytes_append {c : Chunk} (h : c.IsWhole) (rest : List Byte) :
    firstChunk (chunkBytes c ++ rest) = c := by
  have htag : (chunkBytes c ++ rest).drop 4 = c.tag ++ (c.payload ++ (wordBytes c.crc ++ rest)) := by
    rw [chunkBytes_append, List.drop_left' (length_wordBytes _)]
  have hpayload : (chunkBytes c ++ rest).drop 8 = c.payload ++ (wordBytes c.crc ++ rest) := by
    rw [← List.drop_drop (i := 4) (j := 4), htag, List.drop_left' h.length_tag]
  have hcrc : (chunkBytes c ++ rest).drop (8 + c.length) = wordBytes c.crc ++ rest := by
    rw [← List.drop_drop, hpayload, List.drop_left' h.length_payload]
  have hlength : (be32 (chunkBytes c ++ rest) 0).toNat = c.length := by
    rw [chunkBytes_append, be32_wordBytes_append, BitVec.toNat_ofNat, Nat.mod_eq_of_lt h.length_lt]
  rw [firstChunk, hlength, htag, hpayload, be32_eq_be32_drop, hcrc, be32_wordBytes_append,
    List.take_left' h.length_tag, List.take_left' h.length_payload]

theorem nextChunk_chunkBytes_append {c : Chunk} (h : c.IsWhole) (rest : List Byte) :
    nextChunk (chunkBytes c ++ rest) = some (.ok (c, rest)) := by
  have hlen : (chunkBytes c ++ rest).length = 12 + c.length + rest.length := by
    rw [List.length_append, length_chunkBytes h]
  have hnext := nextChunk_cases (chunkBytes c ++ rest)
  rw [firstChunk_chunkBytes_append h, List.drop_left' (length_chunkBytes h)] at hnext
  obtain ⟨hshort, -⟩ | ⟨-, hcut, -⟩ | ⟨-, hok⟩ := hnext
  · omega
  · omega
  · exact hok

/-! ### The walk over whole chunks (R178, R180, R181) -/

/-- A walk that may take as many chunks as the bytes were written from finds those chunks. -/
theorem walkChunks_flatMap_chunkBytes {cs : List Chunk} (hwhole : ∀ c ∈ cs, c.IsWhole)
    (hcrc : ∀ c ∈ cs, chunkCrcOk c = true) {n : Nat} (hn : cs.length ≤ n) :
    walkChunks n (cs.flatMap chunkBytes) = .ok cs := by
  induction cs generalizing n with
  | nil => cases n <;> rfl
  | cons c cs ih =>
    obtain ⟨hc, hcs⟩ := List.forall_mem_cons.1 hwhole
    obtain ⟨hcrcC, hcrcCs⟩ := List.forall_mem_cons.1 hcrc
    cases n with
    | zero => cases hn
    | succ n =>
      rw [List.flatMap_cons, walkChunks, nextChunk_chunkBytes_append hc]
      simp only [hcrcC, if_true, ih hcs hcrcCs (Nat.le_of_succ_le_succ hn)]

/-- A chunk takes at least one byte, so a file's length bounds the number of its chunks. -/
theorem length_le_length_flatMap_chunkBytes {cs : List Chunk} (hwhole : ∀ c ∈ cs, c.IsWhole) :
    cs.length ≤ (cs.flatMap chunkBytes).length := by
  have hone : ∀ n ∈ cs.map fun c => (chunkBytes c).length, 1 ≤ n := List.forall_mem_map.2 fun c hc => by
    rw [length_chunkBytes (hwhole c hc)]
    omega
  have hsum := List.length_le_sum_of_one_le _ hone
  rwa [List.length_map, ← List.length_flatMap] at hsum

/-- The signature comes off the front (R176). -/
theorem parsePng_signature_append (rest : List Byte) :
    parsePng (pngSignature ++ rest) = walkChunks (pngSignature ++ rest).length rest := if_pos rfl

/-- Settles O60: the walk over what follows the signature finds the chunks one by one. -/
theorem containerParses : Obligations.ContainerParses := by
  refine ⟨fun cs h => ?_, fun file h => if_neg h⟩
  have hwhole : ∀ c ∈ cs, c.IsWhole := fun c hc =>
    have ⟨htag, hpayload, hlt, _⟩ := h c hc
    ⟨htag, hpayload, hlt⟩
  have hcrc : ∀ c ∈ cs, chunkCrcOk c = true := fun c hc =>
    have ⟨_, _, _, hok⟩ := h c hc
    hok
  have hlen : cs.length ≤ (pngSignature ++ cs.flatMap chunkBytes).length := by
    rw [List.length_append]
    exact Nat.le_add_left_of_le (length_le_length_flatMap_chunkBytes hwhole)
  rw [parsePng_signature_append]
  exact walkChunks_flatMap_chunkBytes hwhole hcrc hlen

end Sys2Proof.Machine

/-! ## The Huffman unit: codes and their tables (R201 to R206)

The codes of one length are consecutive from the first one, so a symbol of that length has its code by its place among
the symbols of the length. Written as fractions of the code space, the codes of a length fill an interval that begins
where that of the shorter lengths ends: with a Kraft sum of at most 1 all of them fit, and no code begins another. -/

namespace Sys2Proof.Machine

/-- The canonical code of a symbol (R201): the first code of its length plus the number of smaller symbols of that
length. -/
def symbolCode (lens : List Nat) (sym : Nat) : Nat :=
  firstCode lens (lens.getD sym 0) + (lens.take sym).count (lens.getD sym 0)

theorem symbolBits_eq_codeField (lens : List Nat) (sym : Nat) :
    symbolBits lens sym = codeField (lens.getD sym 0) (symbolCode lens sym) := rfl

section
variable {lens : List Nat} {i j len : Nat}

/-! ### Places among the symbols of a length -/

theorem lt_length_of_coded (hi : lens.getD i 0 ≠ 0) : i < lens.length :=
  not_le.1 fun h => hi (List.getD_eq_default _ _ h)

theorem getD_mem_of_coded (hi : lens.getD i 0 ≠ 0) : lens.getD i 0 ∈ lens := by
  rw [List.getD_eq_getElem _ _ (lt_length_of_coded hi)]
  exact List.getElem_mem _

/-- A symbol counts among those of its length from the next place on. -/
theorem count_take_lt_count_take (hi : lens.getD i 0 ≠ 0) (hij : i < j) :
    (lens.take i).count (lens.getD i 0) < (lens.take j).count (lens.getD i 0) := by
  have hnext : lens.take (i + 1) = lens.take i ++ [lens.getD i 0] := by
    rw [List.take_add_one, List.getElem?_eq_getElem (lt_length_of_coded hi),
      List.getD_eq_getElem _ _ (lt_length_of_coded hi), Option.toList_some]
  have hle := (List.take_prefix_take_left (l := lens) hij).sublist.count_le (lens.getD i 0)
  rwa [hnext, List.count_append, List.count_singleton_self] at hle

/-- A code determines its symbol among those of one length. -/
theorem symbolCode_inj (hi : lens.getD i 0 ≠ 0) (hlen : lens.getD i 0 = lens.getD j 0)
    (hcode : symbolCode lens i = symbolCode lens j) : i = j := by
  rw [symbolCode, symbolCode, ← hlen, Nat.add_left_cancel_iff] at hcode
  rcases Nat.lt_trichotomy i j with hij | hij | hij
  · exact absurd hcode (count_take_lt_count_take hi hij).ne
  · exact hij
  · have hlt := count_take_lt_count_take (hlen ▸ hi) hij
    rw [← hlen] at hlt
    exact absurd hcode hlt.ne'

/-- The codes of a length end before the first code plus their number. -/
theorem symbolCode_lt_band (hi : lens.getD i 0 ≠ 0) :
    symbolCode lens i < firstCode lens (lens.getD i 0) + lens.count (lens.getD i 0) := by
  have hlt := count_take_lt_count_take hi (lt_length_of_coded hi)
  rw [List.take_length] at hlt
  exact Nat.add_lt_add_left hlt _

/-! ### Bands of codes and the Kraft sum (R206) -/

theorem firstCode_succ (hl : 1 ≤ len) : firstCode lens (len + 1) = (firstCode lens len + lens.count len) * 2 := by
  obtain ⟨l, rfl⟩ := Nat.exists_eq_add_of_le' hl
  rfl

/-- The codes of a longer length begin after all codes of a shorter one. -/
theorem band_le_firstCode (hl : 1 ≤ len) (d : Nat) :
    (firstCode lens len + lens.count len) * 2 ^ (d + 1) ≤ firstCode lens (len + d + 1) := by
  induction d with
  | zero => rw [Nat.add_zero, firstCode_succ hl, Nat.pow_one]
  | succ d ih =>
    calc (firstCode lens len + lens.count len) * 2 ^ (d + 1 + 1)
        = (firstCode lens len + lens.count len) * 2 ^ (d + 1) * 2 := by rw [Nat.pow_succ, Nat.mul_assoc]
      _ ≤ (firstCode lens (len + d + 1) + lens.count (len + d + 1)) * 2 :=
        Nat.mul_le_mul_right 2 (Nat.le_add_right_of_le ih)
      _ = firstCode lens (len + (d + 1) + 1) := (firstCode_succ (Nat.le_add_left _ _)).symm

/-- The part of the code space, in units of `2^-15`, that one symbol of a length takes (R206). -/
def kraftTerm (len : Nat) : Nat := if len = 0 then 0 else 2 ^ (15 - len)

theorem kraftTerm_of_pos (hl : 1 ≤ len) : kraftTerm len = 2 ^ (15 - len) := if_neg (Nat.ne_of_gt hl)

/-- The codes of a length begin where the shorter ones end. -/
theorem firstCode_mul_kraftTerm (hl : 1 ≤ len) (hl15 : len ≤ 15) :
    firstCode lens len * kraftTerm len = ∑ l ∈ Finset.range len, lens.count l * kraftTerm l := by
  induction len, hl using Nat.le_induction with
  | base => simp [firstCode, kraftTerm]
  | succ l hl ih =>
    have hterm : 2 * kraftTerm (l + 1) = kraftTerm l := by
      rw [kraftTerm_of_pos hl, kraftTerm_of_pos (Nat.le_add_left 1 l), ← Nat.pow_succ', Nat.succ_eq_add_one,
        show 15 - (l + 1) + 1 = 15 - l by omega]
    rw [firstCode_succ hl, Nat.mul_assoc, hterm, Nat.add_mul, ih (Nat.le_of_succ_le hl15), Finset.sum_range_succ]

/-- The Kraft sum by the number of symbols of each length bounds any part of it. -/
theorem sum_count_mul_kraftTerm_le (lens : List Nat) (n : Nat) :
    ∑ l ∈ Finset.range n, lens.count l * kraftTerm l ≤ kraftSum lens := by
  calc ∑ l ∈ Finset.range n, lens.count l * kraftTerm l
      ≤ ∑ l ∈ lens.toFinset, lens.count l * kraftTerm l := Finset.sum_le_sum_of_ne_zero fun l _ hne =>
        List.mem_toFinset.2 (List.count_pos_iff.1 (Nat.pos_of_ne_zero (left_ne_zero_of_mul hne)))
    _ = kraftSum lens := (Finset.sum_list_map_count lens kraftTerm).symm

/-- With a Kraft sum of at most 1 the codes of a length fit it. -/
theorem band_le_two_pow (hk : kraftSum lens ≤ 2 ^ 15) (hl : 1 ≤ len) (hl15 : len ≤ 15) :
    firstCode lens len + lens.count len ≤ 2 ^ len := by
  refine Nat.le_of_mul_le_mul_right ?_ (Nat.two_pow_pos (15 - len))
  calc (firstCode lens len + lens.count len) * 2 ^ (15 - len)
      = ∑ l ∈ Finset.range (len + 1), lens.count l * kraftTerm l := by
        rw [← kraftTerm_of_pos hl, Nat.add_mul, firstCode_mul_kraftTerm hl hl15, Finset.sum_range_succ]
    _ ≤ 2 ^ 15 := (sum_count_mul_kraftTerm_le lens _).trans hk
    _ = 2 ^ len * 2 ^ (15 - len) := by rw [← Nat.pow_add, Nat.add_sub_cancel' hl15]

theorem symbolCode_lt_two_pow (hl : ∀ l ∈ lens, l ≤ 15) (hk : kraftSum lens ≤ 2 ^ 15) (hi : lens.getD i 0 ≠ 0) :
    symbolCode lens i < 2 ^ lens.getD i 0 :=
  (symbolCode_lt_band hi).trans_le (band_le_two_pow hk (Nat.pos_of_ne_zero hi) (hl _ (getD_mem_of_coded hi)))

end

/-! ### Code fields (R101) -/

@[simp] theorem length_codeField (n v : Nat) : (codeField n v).length = n := by
  induction n with
  | zero => rfl
  | succ n ih => rw [codeField, List.length_cons, ih]

/-- The first bits of a field are those of its upper part. -/
theorem codeField_add (m d v : Nat) : codeField (m + d) v = codeField m (v >>> d) ++ codeField d v := by
  induction m with
  | zero => rw [Nat.zero_add, codeField, List.nil_append]
  | succ m ih =>
    rw [Nat.succ_add, codeField, codeField, ih, Nat.testBit_shiftRight, Nat.add_comm d, List.cons_append]

theorem testBit_of_codeField_eq {n u v : Nat} (h : codeField n u = codeField n v) :
    ∀ i, i < n → u.testBit i = v.testBit i := by
  induction n with
  | zero => exact fun i hi => absurd hi (Nat.not_lt_zero i)
  | succ n ih =>
    obtain ⟨hbit, hrest⟩ := List.cons.inj h
    intro i hi
    rcases Nat.lt_succ_iff_lt_or_eq.1 hi with hi | rfl
    · exact ih hrest i hi
    · exact hbit

theorem codeField_inj {n u v : Nat} (hu : u < 2 ^ n) (hv : v < 2 ^ n) (h : codeField n u = codeField n v) : u = v := by
  refine Nat.eq_of_testBit_eq fun i => ?_
  rcases Nat.lt_or_ge i n with hi | hi
  · exact testBit_of_codeField_eq h i hi
  · have hpow := Nat.pow_le_pow_right Nat.two_pos hi
    rw [Nat.testBit_lt_two_pow (hu.trans_le hpow), Nat.testBit_lt_two_pow (hv.trans_le hpow)]

/-- A field that begins another is its upper part. -/
theorem eq_shiftRight_of_codeField_prefix {m d u v : Nat} (hu : u < 2 ^ m) (hv : v < 2 ^ (m + d))
    (h : codeField m u <+: codeField (m + d) v) : u = v >>> d := by
  refine codeField_inj hu ?_ ?_
  · rw [Nat.shiftRight_eq_div_pow]
    exact Nat.div_lt_of_lt_mul (by rwa [← Nat.pow_add, Nat.add_comm])
  · rw [codeField_add] at h
    exact (List.prefix_of_prefix_length_le h (List.prefix_append _ _) (by simp)).eq_of_length (by simp)

/-! ### No code begins another (R206) -/

/-- A code that begins another is of the same symbol: a shorter one would end, in the code space, before the other's
band begins. -/
theorem eq_of_symbolBits_prefix {lens : List Nat} {a b : Nat} (hl : ∀ l ∈ lens, l ≤ 15)
    (hk : kraftSum lens ≤ 2 ^ 15) (ha : lens.getD a 0 ≠ 0) (hb : lens.getD b 0 ≠ 0)
    (h : symbolBits lens a <+: symbolBits lens b) : a = b := by
  have hla : lens.getD a 0 ≤ lens.getD b 0 := by simpa [symbolBits_eq_codeField] using h.length_le
  obtain ⟨d, hd⟩ := Nat.exists_eq_add_of_le hla
  have hcode : symbolCode lens a = symbolCode lens b >>> d := by
    refine eq_shiftRight_of_codeField_prefix (symbolCode_lt_two_pow hl hk ha) ?_ ?_
    · rw [← hd]
      exact symbolCode_lt_two_pow hl hk hb
    · rwa [← hd]
  cases d with
  | zero => exact symbolCode_inj ha hd.symm hcode
  | succ d =>
    have hband : (symbolCode lens a + 1) * 2 ^ (d + 1) ≤ symbolCode lens b :=
      calc (symbolCode lens a + 1) * 2 ^ (d + 1)
          ≤ (firstCode lens (lens.getD a 0) + lens.count (lens.getD a 0)) * 2 ^ (d + 1) :=
            Nat.mul_le_mul_right _ (symbolCode_lt_band ha)
        _ ≤ firstCode lens (lens.getD b 0) := hd ▸ band_le_firstCode (Nat.pos_of_ne_zero ha) d
        _ ≤ symbolCode lens b := Nat.le_add_right _ _
    rw [← Nat.le_div_iff_mul_le (Nat.two_pow_pos _), ← Nat.shiftRight_eq_div_pow, ← hcode] at hband
    exact absurd hband (Nat.not_succ_le_self _)

/-- Settles O22: the codes of a length end before `2^len`, and a code that began another would be of the same symbol. -/
theorem prefixFreeCodes : Obligations.PrefixFreeCodes := fun _ hl hk _ _ ha =>
  ⟨symbolCode_lt_two_pow hl hk ha, fun _ _ hb hab h => hab (eq_of_symbolBits_prefix hl hk ha hb h)⟩

end Sys2Proof.Machine

/-! ## The Huffman unit: which keys a table has (R201, R202) -/

namespace Sys2Proof.Machine

section
variable {lens next : List Nat} {t : Table} {len code : Nat} {sym : BitVec 9}

/-! ### The keys of the build loop -/

theorem getD_set_succ (hlen : len < next.length) (l : Nat) :
    (next.set len (next.getD len 0 + 1)).getD l 0 = next.getD l 0 + if len == l then 1 else 0 := by
  rcases eq_or_ne len l with rfl | hne
  · simp [List.getD_eq_getElem?_getD, hlen]
  · simp [List.getD_eq_getElem?_getD, hne]

/-- The build loop gives each coded symbol the next code of its length, as many on as symbols of that length were met
before it. -/
theorem mem_assignCodes {first : Nat} (hnext : ∀ l ∈ lens, l < next.length) :
    ⟨len, code, sym⟩ ∈ assignCodes next first lens ↔
      len ≠ 0 ∧ ∃ i, lens.getD i 0 = len ∧ code = next.getD len 0 + (lens.take i).count len ∧
        sym = BitVec.ofNat 9 (first + i) := by
  induction lens generalizing next first with
  | nil =>
    simp only [assignCodes, List.not_mem_nil, List.getD_nil, false_iff]
    exact fun ⟨hlen, i, hi, _⟩ => hlen hi.symm
  | cons l rest ih =>
    obtain ⟨hl, hrest⟩ := List.forall_mem_cons.1 hnext
    rw [assignCodes, ← Nat.or_exists_add_one]
    simp only [List.getD_cons_zero, List.getD_cons_succ, List.take_zero, List.count_nil, List.take_succ_cons,
      List.count_cons (l := List.take _ _), Nat.add_zero, Nat.add_right_comm first _ 1, ← Nat.add_assoc]
    split
    case isTrue h0 =>
      rw [ih hrest, h0]
      exact and_congr_right fun hlen => by simp [hlen.symm]
    case isFalse h0 =>
      have hset : ∀ l' ∈ rest, l' < (next.set l (next.getD l 0 + 1)).length := by simpa using hrest
      have hhead : (⟨len, code, sym⟩ : Entry) = ⟨l, next.getD l 0, BitVec.ofNat 9 first⟩ ↔
          len ≠ 0 ∧ l = len ∧ code = next.getD len 0 ∧ sym = BitVec.ofNat 9 first := by
        rw [Entry.mk.injEq]
        constructor
        · rintro ⟨rfl, hkey⟩
          exact ⟨h0, rfl, hkey⟩
        · rintro ⟨-, rfl, hkey⟩
          exact ⟨rfl, hkey⟩
      rw [List.mem_cons, ih hset, hhead, ← and_or_left]
      simp only [getD_set_succ hl, Nat.add_right_comm]

/-! ### The table -/

theorem maxLen_eq_zero : maxLen lens = 0 ↔ ∀ l ∈ lens, l = 0 :=
  ⟨fun h _ hl => Nat.eq_zero_of_le_zero (h ▸ le_maxLen hl),
    fun h => Nat.eq_zero_of_le_zero (maxLen_le fun l hl => (h l hl).le)⟩

theorem maxLen_mem (h : maxLen lens ≠ 0) : maxLen lens ∈ lens := by
  by_contra hout
  have hle : maxLen lens ≤ maxLen lens - 1 := maxLen_le fun l hl =>
    Nat.le_sub_one_of_lt ((le_maxLen hl).lt_of_ne fun he => hout (he ▸ hl))
  omega

theorem buildTable_eq_none : buildTable lens = none ↔ ∀ l ∈ lens, l = 0 := by
  rw [← maxLen_eq_zero, buildTable]
  split <;> simp [*]

theorem buildTable_eq_some : buildTable lens = some t ↔
    maxLen lens ≠ 0 ∧ ⟨assignCodes ((List.range (maxLen lens + 1)).map (firstCode lens)) 0 lens, maxLen lens⟩ = t := by
  rw [buildTable]
  split <;> simp [*]

theorem buildTable_maxlen (ht : buildTable lens = some t) : t.maxlen = maxLen lens := by
  obtain ⟨-, rfl⟩ := buildTable_eq_some.1 ht
  rfl

/-- The entries of a table: those of the coded symbols with their codes (R201). -/
theorem mem_entries (hn : lens.length ≤ 512) (ht : buildTable lens = some t) :
    ⟨len, code, sym⟩ ∈ t.entries ↔ len ≠ 0 ∧ lens.getD sym.toNat 0 = len ∧ code = symbolCode lens sym.toNat := by
  obtain ⟨-, rfl⟩ := buildTable_eq_some.1 ht
  rw [mem_assignCodes fun l hl => by simpa [Nat.lt_succ_iff] using le_maxLen hl]
  have hfirst : ∀ i, lens.getD i 0 ≠ 0 →
      ((List.range (maxLen lens + 1)).map (firstCode lens)).getD (lens.getD i 0) 0 = firstCode lens (lens.getD i 0) :=
    fun i hi => by
      have hle := le_maxLen (getD_mem_of_coded hi)
      rw [List.getD_eq_getElem _ _ (by simpa [Nat.lt_succ_iff]), List.getElem_map, List.getElem_range]
  refine and_congr_right fun hlen => ⟨?_, ?_⟩
  · rintro ⟨i, rfl, rfl, rfl⟩
    have hi := lt_length_of_coded hlen
    rw [Nat.zero_add, BitVec.toNat_ofNat, Nat.mod_eq_of_lt (by omega), hfirst i hlen]
    exact ⟨rfl, rfl⟩
  · rintro ⟨rfl, rfl⟩
    refine ⟨sym.toNat, rfl, by rw [hfirst _ hlen, symbolCode], ?_⟩
    rw [Nat.zero_add, BitVec.ofNat_toNat, BitVec.setWidth_eq]

theorem mem_entries_of_find (h : t.find len code = some sym) : ⟨len, code, sym⟩ ∈ t.entries := by
  obtain ⟨e, he, rfl⟩ := Option.map_eq_some_iff.1 h
  have hkey := List.find?_some he
  simp only [Bool.and_eq_true, beq_iff_eq] at hkey
  obtain ⟨rfl, rfl⟩ := hkey
  exact List.mem_of_find?_eq_some he

/-- The map of a table (R201): a key is that of one symbol only. -/
theorem find_eq_some (hn : lens.length ≤ 512) (ht : buildTable lens = some t) :
    t.find len code = some sym ↔
      len ≠ 0 ∧ lens.getD sym.toNat 0 = len ∧ code = symbolCode lens sym.toNat := by
  rw [← mem_entries hn ht]
  refine ⟨mem_entries_of_find, fun hmem => ?_⟩
  have hsome : (t.find len code).isSome = true := by
    rw [Table.find, Option.isSome_map, List.find?_isSome]
    exact ⟨_, hmem, by simp⟩
  obtain ⟨sym', hfind⟩ := Option.isSome_iff_exists.1 hsome
  obtain ⟨hlen, hlen', hcode'⟩ := (mem_entries hn ht).1 (mem_entries_of_find hfind)
  obtain ⟨-, rfl, rfl⟩ := (mem_entries hn ht).1 hmem
  rw [hfind, BitVec.eq_of_toNat_eq (symbolCode_inj (hlen' ▸ hlen) hlen' hcode'.symm)]

end

/-- Settles O20: the recurrence is the definition's, and the keys are those of the coded symbols. -/
theorem canonicalCodes : Obligations.CanonicalCodes := by
  refine fun lens _ hn => ⟨rfl, fun l hl => firstCode_succ hl, buildTable_eq_none, fun tab ht => ?_⟩
  obtain ⟨hmax, -⟩ := buildTable_eq_some.1 ht
  rw [buildTable_maxlen ht]
  refine ⟨maxLen_mem hmax, fun l hl => le_maxLen hl, fun len code sym => ?_⟩
  rw [find_eq_some (hn.trans (by decide)) ht]
  refine and_congr_right fun hlen => ?_
  have hget : lens.getD sym.toNat 0 = len ↔ lens[sym.toNat]? = some len := by
    rw [List.getD_eq_getElem?_getD, Option.getD_eq_iff, or_iff_left fun h => hlen h.2.symm]
  rw [← hget]
  refine and_congr_right ?_
  rintro rfl
  rfl

end Sys2Proof.Machine

/-! ## The Huffman unit: decoding (R204, R206) -/

namespace Sys2Proof.Machine

/-! ### The bits read, as a field and as a number (R101) -/

/-- The number of a code field is the sum of its bits by their weights (R142). -/
theorem packCode_eq_codeSum (s : State) (k n : Nat) : packCode s k n = codeSum s k n := by
  induction n with
  | zero => rfl
  | succ n ih =>
    rw [packCode, ih, codeSum, codeSum, Finset.sum_range_succ, Finset.sum_mul]
    refine congrArg₂ (· + ·) (Finset.sum_congr rfl fun i hi => ?_) (by simp)
    have hi := Finset.mem_range.1 hi
    rw [Nat.mul_assoc, ← Nat.pow_succ, show (n - 1 - i).succ = n + 1 - 1 - i by omega]

/-- The field of the bits read is those bits. -/
theorem codeField_packCode (s : State) (k n : Nat) :
    codeField n (packCode s k n) = (List.range n).map fun i => streamBit s (k + i) := by
  induction n with
  | zero => rfl
  | succ n ih =>
    have hhigh : packCode s k (n + 1) >>> 1 = packCode s k n := by
      rw [packCode, Nat.shiftRight_eq_div_pow]
      have := Bool.toNat_lt (streamBit s (k + n))
      omega
    have hlow : (packCode s k (n + 1)).testBit 0 = streamBit s (k + n) := testBit_packCode s k (Nat.succ_pos n)
    rw [codeField_add n 1, hhigh, ih, List.range_succ, List.map_append, List.map_singleton, codeField, codeField, hlow]

section
variable {s : State} {bits rest : List Bool}

theorem StreamBegins.codeField_packCode (h : StreamBegins s bits) {m : Nat} (hm : m ≤ bits.length) :
    codeField m (packCode s s.brPos.toNat m) = bits.take m := by
  rw [Machine.codeField_packCode]
  refine List.ext_getElem (by simpa using hm) fun i hi _ => ?_
  rw [List.length_map, List.length_range] at hi
  rw [List.getElem_map, List.getElem_range, List.getElem_take, h.2 i (hi.trans_le hm),
    List.getD_eq_getElem _ _ (hi.trans_le hm)]

theorem StreamBegins.left (h : StreamBegins s (bits ++ rest)) : StreamBegins s bits := by
  obtain ⟨hlen, hbits⟩ := h
  rw [List.length_append] at hlen hbits
  refine ⟨by omega, fun i hi => ?_⟩
  rw [hbits i (by omega), List.getD_append _ _ _ _ hi]

/-- Past its first bits a stream begins with the others. -/
theorem StreamBegins.right (hc : CursorOk s) (h : StreamBegins s (bits ++ rest)) :
    StreamBegins (advance bits.length s) rest := by
  obtain ⟨hlen, hbits⟩ := h
  rw [List.length_append] at hlen hbits
  have hle : bits.length ≤ remainingBits s := by omega
  rw [StreamBegins, remainingBits_advance hc.length hle hc.cursor, advance_brPos_toNat hc.length hle hc.cursor]
  refine ⟨by omega, fun i hi => ?_⟩
  rw [streamBit_congr (t := advance bits.length s) (s := s) rfl rfl, Nat.add_assoc, hbits _ (by omega),
    List.getD_append_right _ _ _ _ (Nat.le_add_right _ _), Nat.add_sub_cancel_left]

end

/-! ### One symbol, and one after another (R204, R206) -/

section
variable {lens : List Nat} {tab : Table} {slot : Nat} {s : State} {sym : BitVec 9}

/-- `decode_one` decodes a code that stands at the cursor (R204, R206): no shorter code begins it. -/
theorem decodeOne_symbolBits (hl : ∀ l ∈ lens, l ≤ 15) (hn : lens.length ≤ 512) (hk : kraftSum lens ≤ 2 ^ 15)
    (ht : buildTable lens = some tab) (hc : CursorOk s) (hslot : slotTable slot s = some tab)
    (hsym : lens.getD sym.toNat 0 ≠ 0) (hbits : StreamBegins s (symbolBits lens sym.toNat)) :
    decodeOne slot s = .ok sym (advance (symbolBits lens sym.toNat).length s) := by
  have hlen : (symbolBits lens sym.toNat).length = lens.getD sym.toNat 0 := length_codeField _ _
  have hcode : packCode s s.brPos.toNat (lens.getD sym.toNat 0) = symbolCode lens sym.toNat := by
    refine codeField_inj (packCode_lt _ _ _) (symbolCode_lt_two_pow hl hk hsym) ?_
    rw [hbits.codeField_packCode hlen.ge]
    exact List.take_of_length_le hlen.le
  have hmax : lens.getD sym.toNat 0 ≤ tab.maxlen := buildTable_maxlen ht ▸ le_maxLen (getD_mem_of_coded hsym)
  rw [hlen]
  refine decodeOne_found hslot hc.length hc.cursor (Nat.pos_of_ne_zero hsym) hmax (hlen ▸ hbits.1)
    ((find_eq_some hn ht).2 ⟨hsym, rfl, hcode⟩) fun j _ hj => ?_
  by_contra hkey
  obtain ⟨sym', hfind⟩ := Option.ne_none_iff_exists'.1 hkey
  obtain ⟨hj0, hlen', hcode'⟩ := (find_eq_some hn ht).1 hfind
  have hprefix : symbolBits lens sym'.toNat <+: symbolBits lens sym.toNat := by
    rw [symbolBits_eq_codeField, hlen', ← hcode', hbits.codeField_packCode (hlen ▸ hj.le)]
    exact List.take_prefix _ _
  rw [eq_of_symbolBits_prefix hl hk (hlen' ▸ hj0) hsym hprefix] at hlen'
  exact hj.ne' hlen'

theorem decodeMany_symbolBits (hl : ∀ l ∈ lens, l ≤ 15) (hn : lens.length ≤ 512) (hk : kraftSum lens ≤ 2 ^ 15)
    (ht : buildTable lens = some tab) (hc : CursorOk s) (hslot : slotTable slot s = some tab)
    {syms : List (BitVec 9)} (hsyms : ∀ sym ∈ syms, lens.getD sym.toNat 0 ≠ 0)
    (hbits : StreamBegins s (syms.flatMap fun sym => symbolBits lens sym.toNat)) :
    decodeMany slot syms.length s =
      .ok syms (advance (syms.flatMap fun sym => symbolBits lens sym.toNat).length s) := by
  induction syms generalizing s with
  | nil => rw [List.flatMap_nil, List.length_nil, List.length_nil, decodeMany, advance_zero]
  | cons sym syms ih =>
    obtain ⟨hsym, hsyms⟩ := List.forall_mem_cons.1 hsyms
    rw [List.flatMap_cons] at hbits ⊢
    have hc' := ((advance_forward hbits.left.1).cursor hc).2
    rw [List.length_cons, decodeMany, decodeOne_symbolBits hl hn hk ht hc hslot hsym hbits.left, Res.andThen_ok,
      ih hc' hslot hsyms (hbits.right hc), Res.andThen_ok, advance_advance, List.length_append]

end

/-- Settles O23: one code after another, by induction over the symbols. -/
theorem huffmanRoundTrip : Obligations.HuffmanRoundTrip := by
  intro lens tab slot syms s hl hn hk ht hinv _ hslot hsyms bits hbits
  exact decodeMany_symbolBits hl (hn.trans (by decide)) hk ht hinv.sound.cursorOk hslot hsyms hbits

end Sys2Proof.Machine

/-! ## The Huffman unit: what the levels of a stream fetch (R113 to R115, R249, R255, R257, R413) -/

namespace Sys2Proof.Machine

section
variable {s : State} {slot m : Nat} {tab : Table} {sym : BitVec 9}

/-! ### The shortest key at the cursor (R204) -/

theorem SlotsOk.slotOk (h : SlotsOk s) (slot : Nat) : SlotOk (slotSize slot) (slotTable slot s) := by
  rcases slot with _ | _ | _
  · exact h.cl
  · exact h.ll
  · exact h.d

/-- A key of a slot is no longer than its longest code, and its symbol is one the slot has room for. -/
theorem SlotsOk.find_bounds (h : SlotsOk s) (hslot : slotTable slot s = some tab) {code : Nat}
    (hf : tab.find m code = some sym) : m ≤ tab.maxlen ∧ sym.toNat < slotSize slot := by
  obtain ⟨-, hentries⟩ := h.slotOk slot tab hslot
  obtain ⟨-, hlen, hsym⟩ := hentries _ (mem_entries_of_find hf)
  exact ⟨hlen, hsym⟩

theorem decodeOne_of_find (h : Inv s) (hslot : slotTable slot s = some tab) (h1 : 1 ≤ m) (hr : m ≤ remainingBits s)
    (hf : tab.find m (codeSum s s.brPos.toNat m) = some sym)
    (hno : ∀ j, 1 ≤ j → j < m → tab.find j (codeSum s s.brPos.toNat j) = none) :
    decodeOne slot s = .ok sym (advance m s) := by
  have hc := h.sound.cursorOk
  simp only [← packCode_eq_codeSum] at hf hno
  exact decodeOne_found hslot hc.length hc.cursor h1 (h.slots.find_bounds hslot hf).1 hr hf hno

theorem decodeOne_of_no_find (h : Inv s) (hslot : slotTable slot s = some tab)
    (hno : ∀ m, 1 ≤ m → m ≤ remainingBits s → tab.find m (codeSum s s.brPos.toNat m) = none) :
    ∃ j, decodeOne slot s = .fail .truncatedHuffmanCode (advance j s) := by
  have hc := h.sound.cursorOk
  simp only [← packCode_eq_codeSum] at hno
  exact decodeOne_none hslot hc.length hc.cursor hno

/-! ### Fetching a Huffman code (R249, R255, R257) -/

/-- The levels whose symbols are Huffman codes, each with its slot. -/
def FetchesBySlot (s : State) (slot : Nat) : Prop :=
  (s.work.level = .clsym ∧ slot = 0) ∨ (s.work.level = .llsym ∧ slot = 1) ∨
    (s.work.level = .dsym ∧ s.work.fixedDist = false ∧ slot = 2)

/-- At such a level the fetch is one symbol decoded from the slot, and the instruction that of the symbol's number. -/
theorem FetchesBySlot.fetch_eq (h : FetchesBySlot s slot) : ∃ instr : BitVec 9 → Instr,
    fetch s = some ((decodeOne slot s).andThen fun sym t => .ok (instr sym) t) ∧
      ∀ sym, sym.toNat < slotSize slot → decode s.work.level sym.toNat = .ok (instr sym) := by
  have hnarrow : ∀ sym : BitVec 9, sym.toNat < 32 → sym.toNat = (sym.setWidth 5).toNat := fun sym hlt => by
    rw [BitVec.toNat_setWidth, Nat.mod_eq_of_lt hlt]
  rcases h with ⟨hv, rfl⟩ | ⟨hv, rfl⟩ | ⟨hv, hfixed, rfl⟩
  · refine ⟨fun sym => decodeCodeLength (sym.setWidth 5), by rw [fetch, hv]; rfl, fun sym hlt => ?_⟩
    rw [hv, hnarrow sym (Nat.lt_trans hlt (by decide)), decode_clsym]
  · exact ⟨decodeLitLen, by rw [fetch, hv]; rfl, fun sym _ => hv ▸ decode_llsym sym⟩
  · refine ⟨fun sym => decodeDistance (sym.setWidth 5), ?_, fun sym hlt => ?_⟩
    · rw [fetch, hv]
      exact congrArg some (if_neg (by simp [hfixed]))
    · rw [hv, hnarrow sym hlt, decode_dsym]

/-- A step whose fetch fails takes that failure, wherever the cursor then stands (R421). -/
theorem step_of_fetch_fail {k : Failure} {n : Nat} (h : fetch s = some (.fail k (advance n s))) :
    ∃ t, step s = .next t ∧ AfterInflateFault k s t := by
  obtain ⟨hframe, hcursor, houtput⟩ := raiseInflate_afterInflateFault k (advance n s)
  exact ⟨_, step_of_fetch h, hframe, hcursor, houtput⟩

/-! ### Distance symbols of a fixed block (R115, R255) -/

theorem fetch_fixedDist (hv : s.work.level = .dsym) (hfixed : s.work.fixedDist = true) :
    fetch s = some ((readCode 5 s).andThen fun d t => .ok (decodeDistance (BitVec.ofNat 5 d)) t) := by
  rw [fetch, hv]
  exact congrArg some (if_pos hfixed)

/-! ### The fixed literal/length codes (R113, R114) -/

theorem kraftSum_fixedLens : kraftSum fixedLens = 2 ^ 15 := by decide +kernel

theorem firstCode_fixedLens :
    firstCode fixedLens 7 = 0 ∧ firstCode fixedLens 8 = 48 ∧ firstCode fixedLens 9 = 400 := by decide +kernel

theorem getD_fixedLens {n : Nat} (h : n < 288) :
    fixedLens.getD n 0 = if n ≤ 143 then 8 else if n ≤ 255 then 9 else if n ≤ 279 then 7 else 8 := by
  simp only [fixedLens, List.getD_eq_getElem?_getD, List.getElem?_append, List.getElem?_replicate, List.length_append,
    List.length_replicate]
  grind

theorem count_take_fixedLens (n len : Nat) : (fixedLens.take n).count len =
    (if len = 8 then min n 144 + min (n - 280) 8 else 0) + (if len = 9 then min (n - 144) 112 else 0) +
      if len = 7 then min (n - 256) 24 else 0 := by
  simp only [fixedLens, List.take_append, List.take_replicate, List.count_append, List.count_replicate,
    List.length_append, List.length_replicate, beq_iff_eq]
  grind

theorem symbolCode_fixedLens {n : Nat} (h : n < 288) :
    symbolCode fixedLens n =
      if n ≤ 143 then 48 + n else if n ≤ 255 then 400 + (n - 144)
      else if n ≤ 279 then n - 256 else 192 + (n - 280) := by
  obtain ⟨h7, h8, h9⟩ := firstCode_fixedLens
  rw [symbolCode, getD_fixedLens h, count_take_fixedLens]
  grind

/-- The codes of R114 are the canonical ones of the lengths of R113. -/
theorem symbolBits_fixedLens {n : Nat} (h : n < 288) : symbolBits fixedLens n = fixedCode n := by
  rw [symbolBits_eq_codeField, getD_fixedLens h, symbolCode_fixedLens h, fixedCode]
  split_ifs <;> rfl

/-- A literal/length symbol of a fixed block is fetched by its fixed code (R257). -/
theorem fetch_fixedCode {n : Nat} (h : Inv s) (hv : s.work.level = .llsym) (ht : s.slotLL = buildTable fixedLens)
    (hn : n < 288) (hbits : StreamBegins s (fixedCode n)) :
    fetch s = some (.ok (decodeLitLen (BitVec.ofNat 9 n)) (advance (fixedCode n).length s)) := by
  have hsym : (BitVec.ofNat 9 n).toNat = n := Nat.mod_eq_of_lt (hn.trans (by decide))
  have hcoded : fixedLens.getD n 0 ≠ 0 := by
    rw [getD_fixedLens hn]
    split_ifs <;> decide
  obtain ⟨tab, htab⟩ := Option.ne_none_iff_exists'.1
    (mt buildTable_eq_none.1 fun hall => hcoded (hall _ (getD_mem_of_coded hcoded)))
  have hdecode := decodeOne_symbolBits (slot := 1) (sym := BitVec.ofNat 9 n) fixedLens_le
    (fixedLens_length.trans (slotSize_le 1)) kraftSum_fixedLens.le htab h.sound.cursorOk (ht.trans htab)
    (hsym.symm ▸ hcoded)
  rw [hsym, symbolBits_fixedLens hn] at hdecode
  rw [fetch, hv]
  exact congrArg some (congrArg (Res.andThen · _) (hdecode hbits))

end

/-- Settles O24: the slot's shortest key or none, the five bits of a fixed distance symbol or fewer, and the fixed
codes as the canonical ones. -/
theorem fixedCodesFetched : Obligations.FixedCodesFetched := by
  refine ⟨fun s slot tab h hv hslot => ?_, fun s h hv hfixed => ?_, fun s n => fetch_fixedCode⟩
  · obtain ⟨instr, hfetch, hdecode⟩ := FetchesBySlot.fetch_eq hv
    refine ⟨fun m sym h1 hr hf hno => ?_, fun hno => ?_⟩
    · rw [decodeOne_of_find h hslot h1 hr hf hno, Res.andThen_ok] at hfetch
      exact ⟨_, hdecode sym (h.slots.find_bounds hslot hf).2, hfetch⟩
    · obtain ⟨j, hj⟩ := decodeOne_of_no_find h hslot hno
      rw [hj, Res.andThen_fail] at hfetch
      exact step_of_fetch_fail hfetch
  · have hfetch := fetch_fixedDist hv hfixed
    refine ⟨fun hr => ?_, fun hr => ?_⟩
    · have hword : (BitVec.ofNat 5 (packCode s s.brPos.toNat 5)).toNat = codeSum s s.brPos.toNat 5 := by
        rw [BitVec.toNat_ofNat, Nat.mod_eq_of_lt (packCode_lt s _ 5), packCode_eq_codeSum]
      rw [readCode_of_le hr, Res.andThen_ok] at hfetch
      exact ⟨_, hword ▸ decode_dsym _, hfetch⟩
    · rw [readCode_of_lt hr, Res.andThen_fail] at hfetch
      exact step_of_fetch_fail (n := 0) (by rwa [advance_zero])

end Sys2Proof.Machine

/-! ## DEFLATE: how an instruction of `INFLATE` fails (R421, R430)

A failure leaves unspecified what an instruction may have changed before it, so for the state after the failure it does
not matter how far the instruction came. -/

namespace Sys2Proof.Machine

section
variable {s u : State} {k : Failure}

/-- What a failed `INFLATE` leaves as it was: everything it does not is put to a fixed value (R421). -/
def unspoiled (s : State) : State :=
  { s with
    brPos := 0, olen := 0, zhdr := 0, obuf := Memory.unspecified 0, lens := Memory.unspecified 0
    slotCL := none, slotLL := none, slotD := none, work := Work.idle, freeCtr := 0 }

/-- An instruction that began in `s` ends in a failure of kind `k`. -/
def Faults (k : Failure) (s : State) (o : Out) : Prop := ∃ t, o = .next t ∧ AfterInflateFault k s t

/-- The state after a failure, by what the failure leaves as it was. -/
theorem afterInflateFault_of_unspoiled (h : unspoiled u = unspoiled s) (k : Failure) :
    AfterInflateFault k s (raiseInflate k u) where
  frame := congrArg (fun e => { e with
    status := .fault, err := k.code, brPos := (raiseInflate k u).brPos, olen := (raiseInflate k u).olen
    zhdr := (raiseInflate k u).zhdr, obuf := (raiseInflate k u).obuf, lens := (raiseInflate k u).lens
    freeCtr := (raiseInflate k u).freeCtr }) h
  cursor := congrArg (·.brLen) h ▸ (raiseInflate_afterInflateFault k u).cursor
  output := congrArg (·.params) h ▸ (raiseInflate_afterInflateFault k u).output

/-- An operation that raised, having changed only what its failure spoils. -/
theorem faults_of_unspoiled {r : Res Unit} (hr : r = .fail k u) (h : unspoiled u = unspoiled s) :
    Faults k s (settleInflate r) :=
  ⟨_, by rw [hr, settleInflate_fail], afterInflateFault_of_unspoiled h k⟩

theorem faults_fail (k : Failure) (s : State) : Faults k s (settleInflate (.fail k s)) := faults_of_unspoiled rfl rfl

end

/-! ### The symbols with no meaning, the end of a block, a fixed block (R227, R235, R252, R254, R256) -/

/-- Settles O44: each of them raises where it stands. -/
theorem invalidSymbols : Obligations.InvalidSymbols := by
  refine fun s b => ⟨fun i hi => ?_, faults_fail .reservedBlockType s⟩
  simp only [List.mem_cons, List.not_mem_nil, or_false] at hi
  obtain rfl | rfl | rfl := hi <;> exact faults_fail .invalidSymbol s

/-- Settles O40: the two cases of the end of a block. -/
theorem endOfBlock : Obligations.EndOfBlock := by
  intro s
  have hexec : exec .eob s = .next (endBlock s) := settleInflate_ok _
  rw [hexec, endBlock]
  refine ⟨fun h => ?_, fun h => ⟨completeInflate s, ?_, rfl⟩⟩ <;> simp only [h, if_true, Bool.false_eq_true, if_false]

/-- Lengths with a code among them give a table (R202). -/
theorem exists_buildTable {lens : List Nat} (h : ∃ l ∈ lens, l ≠ 0) : ∃ tab, buildTable lens = some tab := by
  obtain ⟨l, hl, hne⟩ := h
  exact Option.ne_none_iff_exists'.1 fun hnone => hne (buildTable_eq_none.1 hnone l hl)

theorem exists_fixedTable : ∃ tab, buildTable fixedLens = some tab := by
  have hcoded : fixedLens.getD 0 0 ≠ 0 := by
    rw [getD_fixedLens (by decide)]
    decide
  exact exists_buildTable ⟨_, getD_mem_of_coded hcoded, hcoded⟩

/-- Settles O34: the build of slot 1 gives the fixed table. -/
theorem fixedBlockEntered : Obligations.FixedBlockEntered := by
  intro s final
  obtain ⟨tab, htab⟩ := exists_fixedTable
  refine ⟨tab, htab, ?_⟩
  have hbuild : build 1 fixedLens (setFinal final s) = .ok () (setSlot 1 (some tab) (setFinal final s)) := by
    rw [build, htab]
  have hexec : exec (.blkFixed final) s = settleInflate
      ((build 1 fixedLens (setFinal final s)).andThen fun _ s => .ok () (enterSymbols true s)) := rfl
  rw [hexec, hbuild, Res.andThen_ok, settleInflate_ok]
  rfl

/-! ### Length and distance symbols (R253, R255) -/

/-- The row of a length symbol gives its meaning (R111, R260 to R288). -/
theorem exec_lengthInstrs : ∀ p ∈ lengthInstrs.zip lengthTable, exec p.1 = lengthSymbol p.2.1 p.2.2 := by
  simp only [lengthInstrs, lengthTable, List.cons_append, List.nil_append, List.zip_cons_cons, List.zip_nil_left,
    List.forall_mem_cons, List.not_mem_nil, false_implies, implies_true, and_true]
  and_intros <;> rfl

theorem exec_distanceInstrs : ∀ p ∈ distanceInstrs.zip distanceTable, exec p.1 = distanceSymbol p.2.1 p.2.2 := by
  simp only [distanceInstrs, distanceTable, List.cons_append, List.nil_append, List.zip_cons_cons, List.zip_nil_left,
    List.forall_mem_cons, List.not_mem_nil, false_implies, implies_true, and_true]
  and_intros <;> rfl

theorem lengthTable_bounds : ∀ p ∈ lengthInstrs.zip lengthTable, 3 ≤ p.2.2 ∧ p.2.2 + 2 ^ p.2.1 ≤ 259 := by decide

theorem distanceTable_pos : ∀ p ∈ distanceInstrs.zip distanceTable, 1 ≤ p.2.2 := by decide

theorem integerSum_lt (s : State) (k n : Nat) : integerSum s k n < 2 ^ n :=
  packInteger_eq_integerSum s k n ▸ packInteger_lt s k n

theorem readReversed_sum {n : Nat} {s : State} (h : n ≤ remainingBits s) :
    readReversed n s = .ok (integerSum s s.brPos.toNat n) (advance n s) := by
  rw [readReversed_of_le h, packInteger_eq_integerSum]

section
variable {extra base : Nat} {s : State}

/-- A length symbol whose extra field is there: the distance symbol is read next (R253). -/
theorem lengthSymbol_of_le (h : extra ≤ remainingBits s) (base : Nat) :
    lengthSymbol extra base s = .next { advance extra s with
      work := { s.work with level := .dsym, length := base + integerSum s s.brPos.toNat extra } } := by
  rw [lengthSymbol, readReversed_sum h, Res.andThen_ok, settleInflate_ok]
  rfl

theorem lengthSymbol_of_lt (h : remainingBits s < extra) (base : Nat) :
    Faults .insufficientBits s (lengthSymbol extra base s) := by
  rw [lengthSymbol, readReversed_of_lt h]
  exact faults_fail _ s

end

/-- Settles O41: the row of the symbol, and its extra field there or not. -/
theorem lengthSymbols : Obligations.LengthSymbols := by
  intro i extra base hrow s _ _
  have hexec : exec i = lengthSymbol extra base := exec_lengthInstrs _ hrow
  obtain ⟨hmin, hmax⟩ := lengthTable_bounds _ hrow
  have hlt := integerSum_lt s s.brPos.toNat extra
  rw [hexec]
  exact ⟨fun h => ⟨lengthSymbol_of_le h base, by dsimp only at hmin; omega, by dsimp only at hmax; omega⟩,
    fun h => lengthSymbol_of_lt h base⟩

/-! ### Copies (R350 to R352) -/

section
variable {n d : Nat} {s : State}

/-- `OLEN` after one byte more (R350). -/
theorem toNat_olen_succ (hcap : s.params.obufCap < 2 ^ 32) (hlt : s.olen.toNat < s.params.obufCap) :
    (s.olen + 1).toNat = s.olen.toNat + 1 := by
  have hone : (1 : Word).toNat = 1 := rfl
  rw [BitVec.toNat_add, hone]
  omega

/-- A copy that does not fit ends in `BufferOverflow` at the first byte that finds no room. -/
theorem copyLoop_overflows (hcap : s.params.obufCap < 2 ^ 32) (h : s.params.obufCap < s.olen.toNat + n)
    (ho : s.olen.toNat ≤ s.params.obufCap) : ∃ u, copyLoop n d s = .fail .bufferOverflow u := by
  induction n generalizing s with
  | zero => omega
  | succ n ih =>
    rw [copyLoop]
    rcases append_cases (s.obuf.get (s.olen.toNat - d)) s with ⟨-, ha⟩ | ⟨hlt, ha⟩ <;> rw [ha]
    · exact ⟨s, rfl⟩
    · have hsucc := toNat_olen_succ hcap hlt
      exact ih hcap (by dsimp only; omega) (by dsimp only; omega)

/-- A distance symbol whose extra field is there copies (R255). -/
theorem distanceSymbol_of_le {extra : Nat} (h : extra ≤ remainingBits s) (base : Nat) :
    distanceSymbol extra base s = settleInflate
      ((copy s.work.length (base + integerSum s s.brPos.toNat extra) (advance extra s)).andThen fun _ s =>
        .ok () { s with work := { s.work with level := .llsym, length := 0 } }) := by
  rw [distanceSymbol, readReversed_sum h, Res.andThen_ok, advance_work]

/-- A distance symbol whose copy raises. -/
theorem distanceSymbol_faults {extra base : Nat} {k : Failure} {u : State} (h : extra ≤ remainingBits s)
    (hcopy : copy s.work.length (base + integerSum s s.brPos.toNat extra) (advance extra s) = .fail k u) :
    Faults k s (distanceSymbol extra base s) := by
  have hstate := copy_state s.work.length (base + integerSum s s.brPos.toNat extra) (advance extra s)
  rw [hcopy, Res.state_fail] at hstate
  rw [distanceSymbol_of_le h, hcopy, Res.andThen_fail]
  exact faults_of_unspoiled rfl (by rw [hstate]; rfl)

end

/-- Settles O43: the extra field, the range test and the copy, in this order. -/
theorem distanceFailures : Obligations.DistanceFailures := by
  intro i extra base hrow s hparams hranges
  have hexec : exec i = distanceSymbol extra base := exec_distanceInstrs _ hrow
  rw [hexec]
  refine ⟨fun h => ?_, fun h hfar => distanceSymbol_faults h (if_pos hfar), fun h hin hover => ?_⟩
  · rw [distanceSymbol, readReversed_of_lt h]
    exact faults_fail _ s
  · obtain ⟨u, hu⟩ := copyLoop_overflows (d := base + integerSum s s.brPos.toNat extra) (s := advance extra s)
      (params_bounds hparams).2 hover hranges.olen
    exact distanceSymbol_faults h ((if_neg (Nat.not_lt.2 hin)).trans hu)

end Sys2Proof.Machine

/-! ## DEFLATE: fields read one after another (R143, R146) -/

namespace Sys2Proof.Machine

section
variable {s t : State} {m n : Nat}

theorem CursorOk.of_ranges (hp : s.params.wf = true) (h : Ranges s) : CursorOk s where
  length := by
    have hcap := (params_bounds hp).1
    have hlen := h.brLen
    omega
  cursor := h.brPos

theorem integerSum_congr (hi : t.ibuf = s.ibuf) (ho : t.brOrder = s.brOrder) (k n : Nat) :
    integerSum t k n = integerSum s k n := by
  simp only [integerSum, streamBit_congr hi ho]

/-- An integer field that stands `m` bits past the cursor. -/
theorem readReversed_advance (hc : CursorOk s) (h : m + n ≤ remainingBits s) :
    readReversed n (advance m s) = .ok (integerSum s (s.brPos.toNat + m) n) (advance (m + n) s) := by
  have hm : m ≤ remainingBits s := Nat.le_of_add_right_le h
  have hn : n ≤ remainingBits (advance m s) := by
    rw [remainingBits_advance hc.length hm hc.cursor]
    omega
  rw [readReversed_sum hn, advance_brPos_toNat hc.length hm hc.cursor, advance_advance,
    integerSum_congr (t := advance m s) (s := s) rfl rfl]

/-- An integer field `m` bits past the cursor that is not there. -/
theorem readReversed_advance_fails (hc : CursorOk s) (hm : m ≤ remainingBits s) (h : remainingBits s < m + n) :
    readReversed n (advance m s) = .fail .insufficientBits (advance m s) := by
  refine readReversed_of_lt ?_
  rw [remainingBits_advance hc.length hm hc.cursor]
  omega

end

/-! ### Block headers (R104, R226) -/

section
variable {s : State} {f b1 b2 : Bool}

theorem StreamBegins.bit {bits : List Bool} (h : StreamBegins s bits) {i : Nat} (hi : i < bits.length) :
    streamBit s (s.brPos.toNat + i) = bits[i] := by
  rw [h.2 i hi, List.getD_eq_getElem _ _ hi]

theorem fetchHeader_of_begins (hc : CursorOk s) (h : StreamBegins s [f, b1, b2]) :
    fetchHeader s =
      .ok (decodeBlockHeader (BitVec.ofNat 3 (f.toNat + 2 * (b1.toNat + 2 * b2.toNat)))) (advance 3 s) := by
  have hlen : 3 ≤ remainingBits s := h.1
  have hf : packCode s s.brPos.toNat 1 = f.toNat := by
    have h0 : streamBit s (s.brPos.toNat + 0) = f := h.bit (i := 0) (by simp)
    rw [packCode, packCode, h0, Nat.zero_mul, Nat.zero_add]
  have hb : integerSum s (s.brPos.toNat + 1) 2 = b1.toNat + 2 * b2.toNat := by
    have h1 : streamBit s (s.brPos.toNat + 1) = b1 := h.bit (i := 1) (by simp)
    have h2 : streamBit s (s.brPos.toNat + 2) = b2 := h.bit (i := 2) (by simp)
    simp [integerSum, Finset.sum_range_succ, h1, h2, Nat.add_assoc, Nat.mul_comm]
  rw [fetchHeader, readCode_of_le (by omega), Res.andThen_ok, readReversed_advance hc hlen, Res.andThen_ok, hf, hb]

theorem fetchHeader_of_lt (hc : CursorOk s) (h : remainingBits s < 3) :
    ∃ m, fetchHeader s = .fail .insufficientBits (advance m s) := by
  rcases readCode_cases 1 s with ⟨h1, he⟩ | ⟨-, he⟩ <;> rw [fetchHeader, he]
  · rw [Res.andThen_ok, readReversed_advance_fails hc h1 h]
    exact ⟨1, rfl⟩
  · exact ⟨0, by rw [advance_zero, Res.andThen_fail]⟩

theorem fetch_blkhdr (hv : s.work.level = .blkhdr) : fetch s = some (fetchHeader s) := by rw [fetch, hv]

/-- A header's number is `BFINAL` and twice `BTYPE` (R104). -/
theorem decodeBlockHeader_bits : ∀ f b1 b2 : Bool,
    decodeBlockHeader (BitVec.ofNat 3 (f.toNat + 2 * (b1.toNat + 2 * b2.toNat))) =
      if b1.toNat + 2 * b2.toNat = 0 then .blkStored f
      else if b1.toNat + 2 * b2.toNat = 1 then .blkFixed f
      else if b1.toNat + 2 * b2.toNat = 2 then .blkDynamic f else .blkReserved f := by decide

end

/-- Settles O31: the header's bits as a number, or the field that is not there. -/
theorem blockHeaderFetched : Obligations.BlockHeaderFetched := by
  refine fun s hinv hv => ⟨fun f b1 b2 h => ?_, fun h => ?_⟩
  · rw [fetch_blkhdr hv, fetchHeader_of_begins hinv.sound.cursorOk h, decodeBlockHeader_bits]
    rfl
  · obtain ⟨m, hm⟩ := fetchHeader_of_lt hinv.sound.cursorOk h
    exact step_of_fetch_fail (by rw [fetch_blkhdr hv, hm])

/-! ### The header of a dynamic block (R240, R244) -/

theorem Res.andThen_assoc {α β γ : Type} (r : Res α) (f : α → State → Res β) (g : β → State → Res γ) :
    (r.andThen f).andThen g = r.andThen fun a s => (f a s).andThen g := by cases r <;> rfl

section
variable {s : State} {m n : Nat}

theorem readClLens_concat (order cl : List Nat) (o : Nat) (s : State) :
    readClLens (order ++ [o]) cl s = (readClLens order cl s).andThen fun cl s =>
      (readReversed 3 s).andThen fun v s => .ok (cl.set o v) s := by
  induction order generalizing cl s with
  | nil => rfl
  | cons o' order ih => simp only [List.cons_append, readClLens, ih, Res.andThen_assoc]

theorem readClLens_fails {order : List Nat} (hc : CursorOk s) (hm : m ≤ remainingBits s)
    (h : remainingBits s < m + 3 * order.length) (cl : List Nat) :
    ∃ j, readClLens order cl (advance m s) = .fail .insufficientBits (advance j s) := by
  induction order generalizing cl m with
  | nil => exact absurd h (Nat.not_lt.2 hm)
  | cons o order ih =>
    rw [List.length_cons] at h
    rw [readClLens]
    rcases Nat.lt_or_ge (remainingBits s) (m + 3) with h3 | h3
    · exact ⟨m, by rw [readReversed_advance_fails hc hm h3, Res.andThen_fail]⟩
    · rw [readReversed_advance hc h3, Res.andThen_ok]
      exact ih h3 (by omega) _

theorem idxOf_clOrder_eq {sym : Nat} (hn : n < clOrder.length) : clOrder.idxOf sym = n ↔ clOrder[n] = sym := by
  have hnodup : clOrder.Nodup := by decide
  constructor
  · rintro rfl
    exact List.getElem_idxOf hn
  · rintro rfl
    exact hnodup.idxOf_getElem n hn

/-- One field more: the length of the next symbol in the transmission order. -/
theorem map_clField_succ (s : State) (pos : Nat) (hn : n < clOrder.length) :
    ((List.range 19).map (clField s pos n)).set clOrder[n] (integerSum s (pos + (14 + 3 * n)) 3) =
      (List.range 19).map (clField s pos (n + 1)) := by
  refine List.ext_getElem (by simp) fun sym _ _ => ?_
  simp only [List.getElem_set, List.getElem_map, List.getElem_range, ← idxOf_clOrder_eq hn, clField]
  by_cases h : clOrder.idxOf sym = n
  · simp [h, Nat.add_assoc]
  · rw [if_neg h]
    exact if_congr (by omega) rfl rfl

/-- The lengths of the code-length code, read after the 14 bits of counts (R106, R244). -/
theorem readClLens_clOrder (hc : CursorOk s) (hn : n ≤ clOrder.length) (h : 14 + 3 * n ≤ remainingBits s) :
    readClLens (clOrder.take n) (List.replicate 19 0) (advance 14 s) =
      .ok ((List.range 19).map (clField s s.brPos.toNat n)) (advance (14 + 3 * n) s) := by
  induction n with
  | zero =>
    have hzero : clField s s.brPos.toNat 0 = fun _ => 0 := rfl
    rw [hzero, List.map_const', List.length_range]
    rfl
  | succ n ih =>
    rw [List.take_succ_eq_append_getElem hn, readClLens_concat, ih (by omega) (by omega), Res.andThen_ok,
      readReversed_advance hc (by omega), Res.andThen_ok, map_clField_succ]
    rfl

/-- `HCLEN` of the dynamic header at the cursor. -/
def hclen (s : State) : Nat := 4 + integerSum s (s.brPos.toNat + 10) 4

/-- The lengths of the code-length code in the dynamic header at the cursor. -/
def clLens (s : State) : List Nat := (List.range 19).map (clField s s.brPos.toNat (hclen s))

theorem hclen_bounds (s : State) : 4 ≤ hclen s ∧ hclen s ≤ clOrder.length := by
  have hlt := integerSum_lt s (s.brPos.toNat + 10) 4
  have hlen : clOrder.length = 19 := rfl
  rw [hclen]
  omega

/-- A dynamic header whose counts are there goes on with the code-length code. -/
theorem dynamicHeader_of_counts (hc : CursorOk s) (h : 14 ≤ remainingBits s) :
    dynamicHeader s =
      (readClLens (clOrder.take (hclen s)) (List.replicate 19 0) (advance 14 s)).andThen fun cl t =>
        (build 0 cl t).andThen fun _ t => .ok () { t with
          work := { Work.idle with
            level := .clsym, bfinal := t.work.bfinal
            hlit := 257 + integerSum s s.brPos.toNat 5, hdist := 1 + integerSum s (s.brPos.toNat + 5) 5 } } := by
  rw [dynamicHeader, readReversed_sum (by omega), Res.andThen_ok, readReversed_advance hc (by omega), Res.andThen_ok,
    readReversed_advance hc (by omega), Res.andThen_ok]
  rfl

theorem dynamicHeader_of_table {tab : Table} (hc : CursorOk s) (h : 14 + 3 * hclen s ≤ remainingBits s)
    (htab : buildTable (clLens s) = some tab) :
    dynamicHeader s = .ok () { advance (14 + 3 * hclen s) s with
      slotCL := some tab
      work := { Work.idle with
        level := .clsym, bfinal := s.work.bfinal
        hlit := 257 + integerSum s s.brPos.toNat 5, hdist := 1 + integerSum s (s.brPos.toNat + 5) 5 } } := by
  rw [dynamicHeader_of_counts hc (by omega), readClLens_clOrder hc (hclen_bounds s).2 h, Res.andThen_ok, ← clLens,
    build, htab]
  generalize hclen s = n
  rfl

theorem dynamicHeader_empty (hc : CursorOk s) (h : 14 + 3 * hclen s ≤ remainingBits s)
    (hempty : buildTable (clLens s) = none) :
    ∃ j, dynamicHeader s = .fail .emptyAlphabet { advance j s with slotCL := none } := by
  rw [dynamicHeader_of_counts hc (by omega), readClLens_clOrder hc (hclen_bounds s).2 h, Res.andThen_ok, ← clLens,
    build, hempty]
  exact ⟨_, rfl⟩

/-- A dynamic header that is not all there fails at the first field that is not. -/
theorem dynamicHeader_short (hc : CursorOk s) (h : remainingBits s < 14 + 3 * hclen s) :
    ∃ j, dynamicHeader s = .fail .insufficientBits (advance j s) := by
  rcases Nat.lt_or_ge (remainingBits s) 5 with h5 | h5
  · exact ⟨0, by rw [dynamicHeader, readReversed_of_lt h5, Res.andThen_fail, advance_zero]⟩
  rcases Nat.lt_or_ge (remainingBits s) (5 + 5) with h10 | h10
  · exact ⟨5, by rw [dynamicHeader, readReversed_sum h5, Res.andThen_ok, readReversed_advance_fails hc h5 h10,
      Res.andThen_fail]⟩
  rcases Nat.lt_or_ge (remainingBits s) (5 + 5 + 4) with h14 | h14
  · exact ⟨10, by rw [dynamicHeader, readReversed_sum h5, Res.andThen_ok, readReversed_advance hc h10, Res.andThen_ok,
      readReversed_advance_fails hc h10 h14, Res.andThen_fail]⟩
  · have hlen : (clOrder.take (hclen s)).length = hclen s := List.length_take_of_le (hclen_bounds s).2
    obtain ⟨j, hj⟩ := readClLens_fails hc h14 (hlen.symm ▸ h) (List.replicate 19 0)
    exact ⟨j, by rw [dynamicHeader_of_counts hc h14, hj, Res.andThen_fail]⟩

end

section
variable (f : Bool) (s : State)

@[simp] theorem remainingBits_setFinal : remainingBits (setFinal f s) = remainingBits s := rfl

@[simp] theorem integerSum_setFinal (k n : Nat) : integerSum (setFinal f s) k n = integerSum s k n :=
  integerSum_congr rfl rfl k n

@[simp] theorem hclen_setFinal : hclen (setFinal f s) = hclen s := by simp [hclen]

@[simp] theorem clLens_setFinal : clLens (setFinal f s) = clLens s := by simp [clLens, clField]

theorem CursorOk.setFinal {s : State} (h : CursorOk s) : CursorOk (setFinal f s) := ⟨h.length, h.cursor⟩

end

/-- Settles O35: the header read from the state that holds the block's `BFINAL`. -/
theorem dynamicHeaderRead : Obligations.DynamicHeaderRead := by
  intro s final hparams hranges
  have hc := (CursorOk.of_ranges hparams hranges).setFinal final
  have hexec : exec (.blkDynamic final) s = settleInflate (dynamicHeader (setFinal final s)) := rfl
  simp only [← hclen.eq_1, ← clLens.eq_1]
  rw [hexec, ← remainingBits_setFinal final s, ← hclen_setFinal final s, ← clLens_setFinal final s]
  refine ⟨fun h hcoded => ?_, fun h hzero => ?_, fun h => ?_⟩
  · obtain ⟨tab, htab⟩ := exists_buildTable hcoded
    refine ⟨tab, htab, ?_⟩
    rw [dynamicHeader_of_table hc h htab, settleInflate_ok]
    simp only [integerSum_setFinal, setFinal_work, setFinal_brPos]
    generalize hclen (setFinal final s) = n
    rfl
  · obtain ⟨j, hj⟩ := dynamicHeader_empty hc h (buildTable_eq_none.2 hzero)
    exact faults_of_unspoiled hj rfl
  · obtain ⟨j, hj⟩ := dynamicHeader_short hc h
    exact faults_of_unspoiled hj rfl

end Sys2Proof.Machine

/-! ## DEFLATE: the code lengths of a dynamic block (R245 to R250) -/

namespace Sys2Proof.Machine

section
variable {i : Instr} {s t : State} {extra base r : Nat} {v : Nibble}

/-- The row of a code-length symbol gives its meaning, once a repeat has a length to repeat (R245 to R248). -/
theorem exec_of_codeLengthRow (h : codeLengthRow s i = some (extra, base, v))
    (hrep : i = .clRep → 0 < s.work.produced) :
    exec i s = settleInflate ((readReversed extra s).andThen fun e t => emit v (base + e) t) := by
  unfold codeLengthRow at h
  split at h <;> cases h
  · rw [readReversed_of_le (Nat.zero_le _), advance_zero]
    rfl
  · have hprev : s.work.produced ≠ 0 := (hrep rfl).ne'
    have hexec : exec .clRep s = execClRep s := rfl
    rw [hexec, execClRep, if_neg hprev]
    rcases readReversed_cases 2 s with ⟨-, he⟩ | ⟨-, he⟩ <;> rw [he] <;> rfl
  · rfl
  · rfl

theorem exec_of_codeLengthRow_of_le (h : codeLengthRow s i = some (extra, base, v))
    (hrep : i = .clRep → 0 < s.work.produced) (hbits : extra ≤ remainingBits s) :
    exec i s = settleInflate (emit v (base + integerSum s s.brPos.toNat extra) (advance extra s)) := by
  rw [exec_of_codeLengthRow h hrep, readReversed_sum hbits, Res.andThen_ok]

theorem emit_of_gt (h : s.work.hlit + s.work.hdist < s.work.produced + r) :
    emit v r s = .fail .invalidCodeLengths s := if_pos h

/-- The state after `r` lengths of value `v` have been produced (R249). -/
def produceLens (v : Nibble) (r : Nat) (s : State) : State :=
  { s with
    lens := (fillLens s.work.produced v r s).lens, work := { s.work with produced := s.work.produced + r } }

theorem produceLens_get (v : Nibble) (r : Nat) (s : State) (a : Nat) :
    (produceLens v r s).lens.get a = lensAfter s r v a := fillLens_get _ v r s a

/-- `emit` of the last lengths goes on with the tables (R249, R250). -/
theorem emit_of_eq (h : s.work.produced + r = s.work.hlit + s.work.hdist) :
    emit v r s = afterLengths (produceLens v r s) := by
  rw [emit, if_neg (by omega), fillLens_state, produceLens]

theorem lensFrom_eq_map {f : Nat → Nibble} (h : ∀ a, t.lens.get a = f a) (a n : Nat) :
    lensFrom a n t = (List.range n).map fun i => (f (a + i)).toNat := by
  simp only [lensFrom, Memory.read, List.map_map, Function.comp_def, h]

/-- The end of the code-length loop with a code in both alphabets (R250). -/
theorem afterLengths_of_tables {tl td : Table} (h : s.work.hlit + s.work.hdist ≤ s.work.produced)
    (hl : buildTable (lensFrom 0 s.work.hlit s) = some tl)
    (hd : buildTable (lensFrom s.work.hlit s.work.hdist s) = some td) :
    afterLengths s = .ok () (enterSymbols false { s with slotLL := some tl, slotD := some td }) := by
  have hbuildL : build 1 (lensFrom 0 s.work.hlit s) s = .ok () { s with slotLL := some tl } := by
    rw [build, hl]
    rfl
  have hbuildD : build 2 (lensFrom s.work.hlit s.work.hdist s) { s with slotLL := some tl } =
      .ok () { s with slotLL := some tl, slotD := some td } := by
    rw [build, hd]
    rfl
  rw [afterLengths, if_neg (Nat.not_lt.2 h), hbuildL, Res.andThen_ok]
  exact congrArg (Res.andThen · _) hbuildD

/-- The end of the code-length loop with an alphabet that has no code (R202). -/
theorem afterLengths_empty (h : s.work.hlit + s.work.hdist ≤ s.work.produced)
    (hempty : buildTable (lensFrom 0 s.work.hlit s) = none ∨
      buildTable (lensFrom s.work.hlit s.work.hdist s) = none) :
    ∃ tl td, afterLengths s = .fail .emptyAlphabet { s with slotLL := tl, slotD := td } := by
  rcases afterLengths_cases s with ⟨hlt, -⟩ | ⟨-, tl, td, hl, hd, -⟩ | ⟨-, hfail⟩
  · exact absurd hlt (Nat.not_lt.2 h)
  · rw [hl, hd] at hempty
    simp at hempty
  · exact hfail

end

/-- Settles O36: the symbol's extra field, then `emit` with lengths still to come. -/
theorem codeLengthsProduced : Obligations.CodeLengthsProduced := by
  intro i s extra base v hrow _ _ hrep hbits r hr
  have hemit := emit_of_lt (v := v) (r := r) (s := advance extra s) hr
  rw [exec_of_codeLengthRow_of_le hrow hrep hbits, hemit, settleInflate_ok]
  exact ⟨_, rfl, rfl, produceLens_get v r (advance extra s)⟩

/-- Settles O37: `emit` of the last lengths, and the tables of what `LENS` then holds. -/
theorem codeLengthsComplete : Obligations.CodeLengthsComplete := by
  intro i s extra base v hrow _ _ hrep hbits r ll d hr
  have hemit := emit_of_eq (v := v) (r := r) (s := advance extra s) hr
  rw [exec_of_codeLengthRow_of_le hrow hrep hbits, hemit]
  have hget := produceLens_get v r (advance extra s)
  have hll : lensFrom 0 s.work.hlit (produceLens v r (advance extra s)) = ll := by
    rw [lensFrom_eq_map hget]
    simp only [Nat.zero_add]
    rfl
  have hd : lensFrom s.work.hlit s.work.hdist (produceLens v r (advance extra s)) = d := lensFrom_eq_map hget _ _
  refine ⟨fun hcodedL hcodedD => ?_, fun hempty => ?_⟩
  · obtain ⟨tl, htl⟩ := exists_buildTable hcodedL
    obtain ⟨td, htd⟩ := exists_buildTable hcodedD
    rw [← hll] at htl
    rw [← hd] at htd
    rw [afterLengths_of_tables (s := produceLens v r (advance extra s)) hr.ge htl htd, settleInflate_ok]
    exact ⟨_, tl, td, rfl, hll ▸ htl, hd ▸ htd, rfl, hget⟩
  · simp only [← buildTable_eq_none] at hempty
    rw [← hll, ← hd] at hempty
    obtain ⟨tl, td, hfail⟩ := afterLengths_empty (s := produceLens v r (advance extra s)) hr.ge hempty
    exact faults_of_unspoiled hfail rfl

/-- Settles O38: the previous length, the extra field and the number of lengths, in this order. -/
theorem codeLengthFailures : Obligations.CodeLengthFailures := by
  intro i s extra base v hrow _ _
  refine ⟨fun hi hnone => ?_, fun hrep h => ?_, fun hrep h hover => ?_⟩
  · subst hi
    have hexec : exec .clRep s = execClRep s := rfl
    rw [hexec, execClRep, if_pos hnone]
    exact faults_fail _ s
  · rw [exec_of_codeLengthRow hrow hrep, readReversed_of_lt h]
    exact faults_fail _ s
  · rw [exec_of_codeLengthRow_of_le hrow hrep h]
    exact faults_of_unspoiled (emit_of_gt (s := advance extra s) hover) rfl

end Sys2Proof.Machine

/-! ## DEFLATE: stored blocks (R230 to R234) -/

namespace Sys2Proof.Machine

section
variable {s t : State} {n p : Nat}

/-! ### Bytes of the stream -/

/-- A reader in the order of `INFLATE`, over a stream and an output whose places a 32-bit register can number. -/
structure Streaming (s : State) : Prop where
  cursor : CursorOk s
  order : s.brOrder = 1
  capacity : s.params.obufCap < 2 ^ 32

theorem Streaming.of_ranges (hp : s.params.wf = true) (h : Ranges s) (ho : s.brOrder = 1) : Streaming s :=
  ⟨.of_ranges hp h, ho, (params_bounds hp).2⟩

theorem Streaming.advance (h : Streaming s) (hn : n ≤ remainingBits s) : Streaming (advance n s) :=
  ⟨((advance_forward hn).cursor h.cursor).2, h.order, h.capacity⟩

theorem Streaming.remainingBits (h : Streaming s) : remainingBits s + s.brPos.toNat = 8 * s.brLen.toNat :=
  Nat.sub_add_cancel h.cursor.cursor

theorem integerSum_add (s : State) (k m n : Nat) :
    integerSum s k (m + n) = integerSum s k m + 2 ^ m * integerSum s (k + m) n := by
  simp only [integerSum, Finset.sum_range_add, Finset.mul_sum, Nat.pow_add, Nat.add_assoc, Nat.mul_left_comm]

theorem integerSum_byte (ho : s.brOrder = 1) (p : Nat) : integerSum s (8 * p) 8 = (s.ibuf.get p).toNat := by
  have hbyte := packInteger_byte_lsbFirst ho (Nat.mul_mod_right 8 p)
  rw [Nat.mul_div_cancel_left p (by decide)] at hbyte
  rw [← hbyte, BitVec.toNat_ofNat, Nat.mod_eq_of_lt (packInteger_lt s _ 8), packInteger_eq_integerSum]

/-- The number of two bytes, the low one first (R231). -/
def littleEndian16 (m : Memory 8) (a : Nat) : Nat := (m.get a).toNat + 256 * (m.get (a + 1)).toNat

theorem integerSum_two_bytes (ho : s.brOrder = 1) (p : Nat) :
    integerSum s (8 * p) 16 = littleEndian16 s.ibuf p := by
  rw [integerSum_add s (8 * p) 8 8, integerSum_byte ho, ← Nat.mul_succ, integerSum_byte ho]
  rfl

/-! ### The copy (R233) -/

/-- One byte of the copy: byte `p` of the stream, read and appended. -/
def copyByte (p : Nat) (s : State) : State :=
  { advance 8 s with obuf := s.obuf.set s.olen.toNat (s.ibuf.get p), olen := s.olen + 1 }

@[simp] theorem copyByte_brLen (p : Nat) (s : State) : (copyByte p s).brLen = s.brLen := rfl
@[simp] theorem copyByte_params (p : Nat) (s : State) : (copyByte p s).params = s.params := rfl
@[simp] theorem copyByte_ibuf (p : Nat) (s : State) : (copyByte p s).ibuf = s.ibuf := rfl
@[simp] theorem copyByte_obuf (p : Nat) (s : State) :
    (copyByte p s).obuf = s.obuf.set s.olen.toNat (s.ibuf.get p) := rfl

theorem copyStored_succ (hs : Streaming s) (hp : s.brPos.toNat = 8 * p) (hin : p < s.brLen.toNat)
    (hout : s.olen.toNat < s.params.obufCap) (n : Nat) : copyStored (n + 1) s = copyStored n (copyByte p s) := by
  have hbits := hs.remainingBits
  rw [copyStored, readReversed_sum (by omega), Res.andThen_ok, hp, integerSum_byte hs.order, BitVec.ofNat_toNat,
    BitVec.setWidth_eq, append_of_lt (s := advance 8 s) hout, Res.andThen_ok]
  rfl

/-- After that byte the next one stands at the cursor, and there is one more in the output. -/
theorem copyByte_streaming (hs : Streaming s) (hp : s.brPos.toNat = 8 * p) (hin : p < s.brLen.toNat)
    (hout : s.olen.toNat < s.params.obufCap) :
    Streaming (copyByte p s) ∧ (copyByte p s).brPos.toNat = 8 * (p + 1) ∧
      (copyByte p s).olen.toNat = s.olen.toNat + 1 := by
  have hbits := hs.remainingBits
  have h8 : 8 ≤ remainingBits s := by omega
  obtain ⟨⟨hlength, hcursor⟩, horder, hcap⟩ := hs.advance h8
  have hpos := advance_brPos_toNat hs.cursor.length h8 hs.cursor.cursor
  rw [hp] at hpos
  exact ⟨⟨⟨hlength, hcursor⟩, horder, hcap⟩, hpos, toNat_olen_succ hs.capacity hout⟩

/-- From `s` to `t` the `n` bytes from byte `p` of the stream on were read and appended, and nothing else changed. -/
structure Copied (p n : Nat) (s t : State) : Prop where
  frame : t = { s with brPos := t.brPos, olen := t.olen, obuf := t.obuf }
  brPos : t.brPos.toNat = 8 * (p + n)
  olen : t.olen.toNat = s.olen.toNat + n
  copied : ∀ i, i < n → t.obuf.get (s.olen.toNat + i) = s.ibuf.get (p + i)
  kept : ∀ a, a < s.olen.toNat ∨ s.olen.toNat + n ≤ a → t.obuf.get a = s.obuf.get a

/-- The byte at the front of those copied. -/
theorem Copied.cons (h : Copied (p + 1) n (copyByte p s) t) (ho : (copyByte p s).olen.toNat = s.olen.toNat + 1) :
    Copied p (n + 1) s t where
  frame := h.frame
  brPos := by rw [h.brPos, Nat.add_assoc, Nat.add_comm 1]
  olen := by rw [h.olen, ho, Nat.add_assoc, Nat.add_comm 1]
  copied i hi := by
    cases i with
    | zero => rw [h.kept _ (by omega), copyByte_obuf, Nat.add_zero, Nat.add_zero, Memory.get_set_same]
    | succ i =>
      have hcopied := h.copied i (by omega)
      rwa [ho, copyByte_ibuf, Nat.add_assoc, Nat.add_assoc, Nat.add_comm 1] at hcopied
  kept a ha := by rw [h.kept a (by omega), copyByte_obuf, Memory.get_set_other _ _ (by omega)]

/-- A copy whose bytes are all there and fit. -/
theorem copyStored_fits (hs : Streaming s) (hp : s.brPos.toNat = 8 * p) (hin : p + n ≤ s.brLen.toNat)
    (hout : s.olen.toNat + n ≤ s.params.obufCap) : ∃ t, copyStored n s = .ok () t ∧ Copied p n s t := by
  induction n generalizing s p with
  | zero => exact ⟨s, rfl, rfl, hp, rfl, fun _ hi => absurd hi (Nat.not_lt_zero _), fun _ _ => rfl⟩
  | succ n ih =>
    obtain ⟨hbs, hbp, hbo⟩ := copyByte_streaming hs hp (by omega) (by omega)
    obtain ⟨t, ht, hcopied⟩ :=
      ih hbs hbp (by rw [copyByte_brLen]; omega) (by rw [copyByte_params]; omega)
    exact ⟨t, by rw [copyStored_succ hs hp (by omega) (by omega), ht], hcopied.cons hbo⟩

/-- A copy whose first byte that cannot be copied is not in the stream. -/
theorem copyStored_short (hs : Streaming s) (hp : s.brPos.toNat = 8 * p) (hin : s.brLen.toNat < p + n)
    (hout : s.olen.toNat + (s.brLen.toNat - p) ≤ s.params.obufCap) :
    ∃ u, copyStored n s = .fail .insufficientBits u := by
  have hbits := hs.remainingBits
  induction n generalizing s p with
  | zero => omega
  | succ n ih =>
    rcases Nat.lt_or_ge p s.brLen.toNat with hlt | hge
    · obtain ⟨hbs, hbp, hbo⟩ := copyByte_streaming hs hp hlt (by omega)
      rw [copyStored_succ hs hp hlt (by omega)]
      exact ih hbs hbp (by rw [copyByte_brLen]; omega) (by rw [copyByte_brLen, copyByte_params]; omega)
        hbs.remainingBits
    · exact ⟨s, by rw [copyStored, readReversed_of_lt (by omega), Res.andThen_fail]⟩

/-- A copy whose first byte that cannot be copied finds no room in the output. -/
theorem copyStored_overflows (hs : Streaming s) (hp : s.brPos.toNat = 8 * p) (ho : s.olen.toNat ≤ s.params.obufCap)
    (hout : s.params.obufCap < s.olen.toNat + n)
    (hin : s.params.obufCap < s.olen.toNat + (s.brLen.toNat - p)) :
    ∃ u, copyStored n s = .fail .bufferOverflow u := by
  have hbits := hs.remainingBits
  induction n generalizing s p with
  | zero => omega
  | succ n ih =>
    rcases Nat.lt_or_ge s.olen.toNat s.params.obufCap with hlt | hge
    · obtain ⟨hbs, hbp, hbo⟩ := copyByte_streaming hs hp (by omega) hlt
      rw [copyStored_succ hs hp (by omega) hlt]
      exact ih hbs hbp (by rw [copyByte_params]; omega) (by rw [copyByte_params]; omega)
        (by rw [copyByte_brLen, copyByte_params]; omega) hbs.remainingBits
    · have hfull (b : Byte) : append b (advance 8 s) = .fail .bufferOverflow (advance 8 s) := if_pos hge
      rw [copyStored, readReversed_sum (by omega), Res.andThen_ok, hfull]
      exact ⟨_, rfl⟩

/-! ### The block (R230 to R232) -/

/-- The byte at which the lengths of a stored block begin (R230). -/
def storedStart (s : State) : Nat := (s.brPos.toNat + 7) / 8

/-- `LEN` of the stored block at the cursor (R231). -/
def storedLen (s : State) : Nat := littleEndian16 s.ibuf (storedStart s)

/-- `NLEN` of the stored block at the cursor (R231). -/
def storedNlen (s : State) : Nat := littleEndian16 s.ibuf (storedStart s + 2)

/-- `WARN` after the complement check of a block that goes on (R232). -/
def storedWarn (s : State) : BitVec 1 := if storedLen s = storedNlen s ^^^ 0xFFFF then s.warn else 1

theorem storedStart_eq (s : State) : s.brPos.toNat + alignPad s.brPos.toNat = 8 * storedStart s := by
  rw [alignPad, storedStart]
  omega

/-- A stored block up to its complement check. -/
theorem storedBlock_of_lengths (hs : Streaming s) (h : storedStart s + 4 ≤ s.brLen.toNat) :
    storedBlock s =
      (checkComplement (storedLen s) (storedNlen s) (advance (alignPad s.brPos.toNat + 16 + 16) s)).andThen fun _ t =>
        (copyStored (storedLen s) t).andThen fun _ t => .ok () (endBlock t) := by
  have hbits := hs.remainingBits
  have hstart := storedStart_eq s
  have hnlen : s.brPos.toNat + (alignPad s.brPos.toNat + 16) = 8 * (storedStart s + 2) := by omega
  rw [storedBlock, readCode_of_le (by omega), Res.andThen_ok, readReversed_advance hs.cursor (by omega),
    Res.andThen_ok, readReversed_advance hs.cursor (by omega), Res.andThen_ok, hnlen, hstart,
    integerSum_two_bytes hs.order, integerSum_two_bytes hs.order]
  rfl

/-- A stored block whose lengths are not all there fails at the first that is not. -/
theorem storedBlock_short (hs : Streaming s) (h : s.brLen.toNat < storedStart s + 4) :
    ∃ j, storedBlock s = .fail .insufficientBits (advance j s) := by
  have hbits := hs.remainingBits
  have hstart := storedStart_eq s
  have hpad : alignPad s.brPos.toNat ≤ remainingBits s := by
    have hle := hs.cursor.cursor
    rw [storedStart] at hstart
    omega
  rw [storedBlock, readCode_of_le hpad, Res.andThen_ok]
  rcases Nat.lt_or_ge (remainingBits s) (alignPad s.brPos.toNat + 16) with h16 | h16
  · exact ⟨_, by rw [readReversed_advance_fails hs.cursor hpad h16, Res.andThen_fail]⟩
  · rw [readReversed_advance hs.cursor h16, Res.andThen_ok, readReversed_advance_fails hs.cursor h16 (by omega)]
    exact ⟨_, rfl⟩

/-- A mismatch in strict mode (R232). -/
theorem storedBlock_mismatch (hs : Streaming s) (h : storedStart s + 4 ≤ s.brLen.toNat)
    (hne : storedLen s ≠ storedNlen s ^^^ 0xFFFF) (hstrict : s.params.strictNlen = true) :
    storedBlock s = .fail .storedLenMismatch (advance (alignPad s.brPos.toNat + 16 + 16) s) := by
  rw [storedBlock_of_lengths hs h, checkComplement, if_neg hne, advance_params, if_pos hstrict, Res.andThen_fail]

/-- The complement check of a block that goes on, by what it leaves in `WARN` (R232). -/
theorem checkComplement_passes {len nlen : Nat} (h : len = nlen ^^^ 0xFFFF ∨ s.params.strictNlen = false) :
    checkComplement len nlen s = .ok () { s with warn := if len = nlen ^^^ 0xFFFF then s.warn else 1 } := by
  rcases checkComplement_cases len nlen s with ⟨heq, he⟩ | ⟨hne, hstrict, -⟩ | ⟨hne, -, he⟩
  · rw [he, if_pos heq]
  · simp [hne, hstrict] at h
  · rw [he, if_neg hne]
    rfl

/-- The state in which the copy of a stored block begins. -/
def storedCopyStart (s : State) : State :=
  { advance (alignPad s.brPos.toNat + 16 + 16) s with warn := storedWarn s }

theorem storedCopyStart_streaming (hs : Streaming s) (h : storedStart s + 4 ≤ s.brLen.toNat) :
    Streaming (storedCopyStart s) ∧ (storedCopyStart s).brPos.toNat = 8 * (storedStart s + 4) := by
  have hbits := hs.remainingBits
  have hstart := storedStart_eq s
  have hle : alignPad s.brPos.toNat + 16 + 16 ≤ remainingBits s := by omega
  obtain ⟨⟨hlength, hcursor⟩, horder, hcap⟩ := hs.advance hle
  have hpos := advance_brPos_toNat hs.cursor.length hle hs.cursor.cursor
  exact ⟨⟨⟨hlength, hcursor⟩, horder, hcap⟩, hpos.trans (by omega)⟩

/-- A stored block whose complement check passes goes on with the copy. -/
theorem storedBlock_of_checked (hs : Streaming s) (h : storedStart s + 4 ≤ s.brLen.toNat)
    (hcheck : storedLen s = storedNlen s ^^^ 0xFFFF ∨ s.params.strictNlen = false) :
    storedBlock s =
      (copyStored (storedLen s) (storedCopyStart s)).andThen fun _ t => .ok () (endBlock t) := by
  rw [storedBlock_of_lengths hs h, checkComplement_passes (by exact hcheck), Res.andThen_ok]
  rfl

end

section
variable {s : State}

theorem Streaming.setFinal (hs : Streaming s) (f : Bool) : Streaming (setFinal f s) :=
  ⟨hs.cursor.setFinal f, hs.order, hs.capacity⟩

theorem exec_blkStored (final : Bool) (s : State) :
    exec (.blkStored final) s = settleInflate (storedBlock (setFinal final s)) := rfl

/-- The state of a stored block that goes on, but for its cursor and its output. -/
def storedChecked (final : Bool) (s : State) : State :=
  { s with warn := storedWarn s, work := { s.work with bfinal := final } }

/-- A stored block that is all there and fits (R230 to R234). -/
theorem exec_blkStored_fits (hs : Streaming s) (final : Bool)
    (hin : storedStart s + 4 + storedLen s ≤ s.brLen.toNat)
    (hout : s.olen.toNat + storedLen s ≤ s.params.obufCap)
    (hcheck : storedLen s = storedNlen s ^^^ 0xFFFF ∨ s.params.strictNlen = false) :
    ∃ t, exec (.blkStored final) s = .next (endBlock t) ∧
      Copied (storedStart s + 4) (storedLen s) (storedChecked final s) t := by
  have hlengths := Nat.le_of_add_right_le hin
  obtain ⟨hstart, hpos⟩ := storedCopyStart_streaming (hs.setFinal final) hlengths
  obtain ⟨t, ht, hcopied⟩ := copyStored_fits (n := storedLen (setFinal final s)) hstart hpos hin hout
  refine ⟨t, ?_, { hcopied with }⟩
  rw [exec_blkStored, storedBlock_of_checked (hs.setFinal final) hlengths hcheck, ht]
  rfl

/-- A stored block whose copy raises. -/
theorem exec_blkStored_copy_faults {k : Failure} {u : State} (hs : Streaming s) (final : Bool)
    (hin : storedStart s + 4 ≤ s.brLen.toNat)
    (hcheck : storedLen s = storedNlen s ^^^ 0xFFFF ∨ s.params.strictNlen = false)
    (hcopy : copyStored (storedLen s) (storedCopyStart (setFinal final s)) = .fail k u) :
    Faults k { s with warn := storedWarn s } (exec (.blkStored final) s) := by
  have hstate := copyStored_state (storedLen s) (storedCopyStart (setFinal final s))
  rw [hcopy, Res.state_fail] at hstate
  have hlen : storedLen (setFinal final s) = storedLen s := rfl
  rw [exec_blkStored, storedBlock_of_checked (hs.setFinal final) hin hcheck, hlen, hcopy, Res.andThen_fail]
  exact faults_of_unspoiled rfl (by rw [hstate]; rfl)

/-- What the end of a block can change. -/
theorem endBlock_state (s : State) :
    endBlock s = { s with
      status := (endBlock s).status, err := (endBlock s).err, lens := (endBlock s).lens
      slotCL := (endBlock s).slotCL, slotLL := (endBlock s).slotLL, slotD := (endBlock s).slotD
      work := (endBlock s).work, freeCtr := (endBlock s).freeCtr } := by
  rcases endBlock_cases s with ⟨-, he⟩ | ⟨-, he⟩  <;> rw [he]
  rfl

end

/-- Settles O32: the copy of the block, then the two cases of its end. -/
theorem storedBlockRuns : Obligations.StoredBlockRuns := by
  intro s final hparams hranges ho j len nlen hin hout hcheck
  obtain ⟨t, hexec, hframe, hpos, holen, hcopied, hkept⟩ :=
    exec_blkStored_fits (.of_ranges hparams hranges ho) final hin hout hcheck
  have hend := endBlock_state t
  have hbfinal : t.work.bfinal = final := by
    rw [hframe]
    rfl
  refine ⟨endBlock t, hexec, ?_, ?_, ?_, ?_, ?_, ?_, fun hfinal => ?_, fun hfinal => ?_⟩
  · rw [hend, hframe]
    rfl
  · rw [hend]
    exact hpos
  · rw [hend]
    exact holen
  · rw [hend]
    exact hcopied
  · rw [hend]
    exact hkept
  · rw [hend, hframe]
    rfl
  · rw [endBlock, hbfinal, hfinal, if_neg Bool.false_ne_true, hframe]
    exact ⟨rfl, rfl, rfl, rfl, rfl, rfl, rfl⟩
  · rw [endBlock, hbfinal, if_pos hfinal]
    exact ⟨rfl, rfl, rfl⟩

/-- The state a stored block's warning leaves, as the statement writes it. -/
theorem warned_eq (s : State) :
    (if storedLen s = storedNlen s ^^^ 0xFFFF then s else { s with warn := 1 }) = { s with warn := storedWarn s } := by
  unfold storedWarn
  split <;> rfl

/-- Settles O33: the lengths, the complement check and the bytes, in this order. -/
theorem storedBlockFails : Obligations.StoredBlockFails := by
  intro s final hparams hranges ho j len nlen warned
  have hs := Streaming.of_ranges hparams hranges ho
  have hwarned : warned = { s with warn := storedWarn s } := warned_eq s
  rw [hwarned]
  refine ⟨fun h => ?_, fun h hne hstrict => ?_, fun h hcheck hin hout => ?_, fun h hcheck hout hin => ?_⟩
  · obtain ⟨m, hm⟩ := storedBlock_short (hs.setFinal final) h
    exact faults_of_unspoiled hm rfl
  · exact faults_of_unspoiled (storedBlock_mismatch (hs.setFinal final) h hne hstrict) rfl
  · obtain ⟨hstart, hpos⟩ := storedCopyStart_streaming (hs.setFinal final) h
    obtain ⟨u, hu⟩ := copyStored_short hstart hpos hin hout
    exact exec_blkStored_copy_faults hs final h hcheck hu
  · obtain ⟨hstart, hpos⟩ := storedCopyStart_streaming (hs.setFinal final) h
    obtain ⟨u, hu⟩ := copyStored_overflows hstart hpos hranges.olen hout hin
    exact exec_blkStored_copy_faults hs final h hcheck hu

end Sys2Proof.Machine

/-! ## DEFLATE: whole streams (R220, R225, R354)

The instructions of a stream lead from state to state. A run with turns enough ends where they lead, so what follows
says which states they lead through and counts no turns. -/

namespace Sys2Proof.Machine

/-! ### Where a run leads -/

section
variable {s t u : State} {m n : Nat}

/-- The running command's instructions lead from `s` to `t`. -/
def Reaches (s t : State) : Prop := ∃ n, runStream n s = .next t

/-- A run goes on from where an earlier part of it came. -/
theorem runStream_add (h : runStream m s = .next t) (n : Nat) : runStream (m + n) s = runStream n t := by
  induction m generalizing s with
  | zero =>
    cases h
    rw [Nat.zero_add]
  | succ m ih =>
    rw [Nat.succ_add]
    cases hf : fetch s with
    | none =>
      have hover := fetch_none.1 hf
      rw [runStream_over _ hover] at h ⊢
      cases h
      rw [runStream_over n hover]
    | some r =>
      obtain ⟨u, hu⟩ := streamTurn_next r
      simp only [runStream, hf, hu] at h ⊢
      exact ih h

theorem Reaches.refl (s : State) : Reaches s s := ⟨0, rfl⟩

theorem Reaches.trans (h : Reaches s t) (h' : Reaches t u) : Reaches s u := by
  obtain ⟨m, hm⟩ := h
  obtain ⟨n, hn⟩ := h'
  exact ⟨m + n, (runStream_add hm n).trans hn⟩

theorem Reaches.instr {i : Instr} (h : fetch s = some (.ok i t)) (he : exec i t = .next u) : Reaches s u :=
  ⟨1, runStream_succ 0 h he⟩

/-- Two runs that both end the command end in the same state. -/
theorem Reaches.eq_of_atHost (h : Reaches s t) (ht : t.atHost) (hu : runStream n s = .next u) (hover : u.atHost) :
    u = t := by
  obtain ⟨m, hm⟩ := h
  have hleft := runStream_add hm n
  have hright := runStream_add hu m
  rw [runStream_over n ht] at hleft
  rw [runStream_over m hover, Nat.add_comm, hleft] at hright
  cases hright
  rfl

/-- `INFLATE` ends where its stream leads (R258, R381). -/
theorem exec_inflate_of_reaches {s' : State} (hp : s.params.wf = true) (hs : s.status ≠ .fault)
    (ha : s.arg0.toNat ≤ s.params.ibufCap) (hz : zlibHeader (enterInflate s) = .ok () s')
    (h : Reaches (enterBlocks s') t) (ht : t.atHost) : exec .inflate s = .next t := by
  have hc := enterInflate_cursorOk hp ha
  have hblocks := (zlibHeader_onward _ _ _ hz).trans (enterBlocks_forward s')
  have hbits := hblocks.remainingBits_lt hc (by omega)
  obtain ⟨u, hu, hover⟩ := runStream_atHost (hblocks.level nofun) (hblocks.cursor hc).2 hbits
  rw [exec_inflate_of_header hs ha hz, ← h.eq_of_atHost ht hu hover]
  exact hu

end

/-! ### What a stream leaves, and what it has put out -/

section
variable {s t u : State} {out bytes more : List Byte} {p : Nat}

/-- What every block of a stream leaves as it is, a mismatch that is tolerated apart. -/
structure SameStream (s t : State) : Prop where
  ibuf : t.ibuf = s.ibuf
  brLen : t.brLen = s.brLen
  brOrder : t.brOrder = s.brOrder
  params : t.params = s.params
  zhdr : t.zhdr = s.zhdr
  htValid : t.htValid = s.htValid
  warn : t.warn = s.warn

theorem SameStream.refl (s : State) : SameStream s s := ⟨rfl, rfl, rfl, rfl, rfl, rfl, rfl⟩

theorem SameStream.trans (h : SameStream s t) (h' : SameStream t u) : SameStream s u :=
  ⟨h'.ibuf.trans h.ibuf, h'.brLen.trans h.brLen, h'.brOrder.trans h.brOrder, h'.params.trans h.params,
    h'.zhdr.trans h.zhdr, h'.htValid.trans h.htValid, h'.warn.trans h.warn⟩

theorem endBlock_sameStream (s : State) : SameStream s (endBlock s) := by
  rw [endBlock_state]
  exact ⟨rfl, rfl, rfl, rfl, rfl, rfl, rfl⟩

/-- The output of `s` is `out` (R29, R31). -/
structure HasOutput (s : State) (out : List Byte) : Prop where
  olen : s.olen.toNat = out.length
  bytes : ∀ i, i < out.length → s.obuf.get i = out.getD i 0

/-- Output appended to output. -/
theorem HasOutput.append (h : HasOutput s out) (holen : t.olen.toNat = s.olen.toNat + more.length)
    (hkept : ∀ a, a < s.olen.toNat → t.obuf.get a = s.obuf.get a)
    (hmore : ∀ i, i < more.length → t.obuf.get (s.olen.toNat + i) = more.getD i 0) : HasOutput t (out ++ more) where
  olen := by rw [holen, h.olen, List.length_append]
  bytes i hi := by
    rw [List.length_append] at hi
    rcases Nat.lt_or_ge i out.length with hlt | hge
    · rw [hkept i (h.olen ▸ hlt), h.bytes i hlt, List.getD_append _ _ _ _ hlt]
    · obtain ⟨j, rfl⟩ := Nat.exists_eq_add_of_le hge
      have hj := hmore j (by omega)
      rw [h.olen] at hj
      rw [hj, List.getD_append_right _ _ _ _ hge, Nat.add_sub_cancel_left]

theorem HasOutput.endBlock (h : HasOutput s out) : HasOutput (endBlock s) out := by
  rw [endBlock_state]
  exact ⟨h.olen, h.bytes⟩

/-! ### The zlib header (R221 to R223) -/

theorem ofNat_two_bytes (lo hi : Byte) : BitVec.ofNat 16 (lo.toNat + 256 * hi.toNat) = hi ++ lo := by
  refine BitVec.eq_of_toNat_eq ?_
  have hlo := lo.isLt
  have hhi := hi.isLt
  rw [BitVec.toNat_append, ← Nat.shiftLeft_add_eq_or_of_lt lo.isLt, Nat.shiftLeft_eq, BitVec.toNat_ofNat]
  omega

/-- The header of a stream that names no preset dictionary (R221 to R223). -/
theorem zlibHeader_of_bytes (hs : Streaming s) (hp : s.brPos = 0) (hlen : 16 ≤ remainingBits s)
    (hdict : (s.ibuf.get 1).getLsbD 5 = false) :
    zlibHeader s = .ok () { advance 16 s with zhdr := s.ibuf.get 1 ++ s.ibuf.get 0 } := by
  have hcmf : integerSum s s.brPos.toNat 8 = (s.ibuf.get 0).toNat := by
    rw [hp]
    exact integerSum_byte hs.order 0
  have hflg : integerSum s (s.brPos.toNat + 8) 8 = (s.ibuf.get 1).toNat := by
    rw [hp]
    exact integerSum_byte hs.order 1
  have hbit : ¬ (s.ibuf.get 1).toNat.testBit 5 = true := by
    rw [BitVec.testBit_toNat, hdict]
    exact Bool.false_ne_true
  rw [zlibHeader, readReversed_sum (by omega), Res.andThen_ok, readReversed_advance hs.cursor hlen, Res.andThen_ok,
    hcmf, hflg, if_neg hbit, ofNat_two_bytes]

/-- The block loop of `INFLATE` as its header leaves it: an empty output, and the cursor after the two bytes. -/
def blocksBegin (s : State) : State :=
  { enterInflate s with
    brPos := 16, zhdr := s.ibuf.get 1 ++ s.ibuf.get 0, work := { Work.idle with level := .blkhdr } }

theorem blocksBegin_output (s : State) : HasOutput (blocksBegin s) [] := ⟨rfl, nofun⟩

theorem blocksBegin_streaming (hp : s.params.wf = true) (ha : s.arg0.toNat ≤ s.params.ibufCap) (h2 : 2 ≤ s.arg0.toNat) :
    Streaming (blocksBegin s) := by
  have h16 : (16 : Word).toNat = 16 := rfl
  exact ⟨⟨(enterInflate_cursorOk hp ha).length, by simp only [blocksBegin, enterInflate_brLen, h16]; omega⟩, rfl,
    (params_bounds hp).2⟩

/-- `INFLATE` of a stream that names no preset dictionary ends where its blocks lead. -/
theorem exec_inflate_of_blocks (hp : s.params.wf = true) (hs : s.status ≠ .fault)
    (ha : s.arg0.toNat ≤ s.params.ibufCap) (h2 : 2 ≤ s.arg0.toNat) (hdict : (s.ibuf.get 1).getLsbD 5 = false)
    (h : Reaches (blocksBegin s) t) (ht : t.atHost) : exec .inflate s = .next t := by
  have hstream : Streaming (enterInflate s) := ⟨enterInflate_cursorOk hp ha, rfl, (params_bounds hp).2⟩
  have hbits : remainingBits (enterInflate s) = 8 * s.arg0.toNat := rfl
  exact exec_inflate_of_reaches hp hs ha (zlibHeader_of_bytes hstream rfl (by omega) hdict) h ht

/-- A stream's blocks led from `s` to the end of the command, with the output `x` and the cursor at bit `pos`. -/
structure Finishes (s : State) (pos : Nat) (x : List Byte) (t : State) : Prop where
  reaches : Reaches s t
  atHost : t.atHost
  status : t.status = .done
  err : t.err = 0
  same : SameStream s t
  brPos : t.brPos.toNat = pos
  output : HasOutput t x

/-- What led to a state, and where that state's blocks lead. -/
theorem Finishes.after {pos : Nat} (h : Finishes t pos out u) (hst : Reaches s t) (hsame : SameStream s t) :
    Finishes s pos out u :=
  { h with reaches := hst.trans h.reaches, same := hsame.trans h.same }

/-- The end of the final block ends the command (R225). -/
theorem finishes_endBlock {pos : Nat} (hfinal : t.work.bfinal = true) (hst : Reaches s (endBlock t))
    (hsame : SameStream s t) (hpos : t.brPos.toNat = pos) (hout : HasOutput t out) :
    Finishes s pos out (endBlock t) := by
  have hend : endBlock t = completeInflate t := if_pos hfinal
  refine ⟨hst, ?_, ?_, ?_, hsame.trans (endBlock_sameStream t), ?_, hout.endBlock⟩ <;> rw [hend]
  · rfl
  · rfl
  · rfl
  · exact hpos

theorem Streaming.of_same (hs : Streaming s) (h : SameStream s t) (hpos : t.brPos.toNat ≤ 8 * s.brLen.toNat) :
    Streaming t where
  cursor := ⟨by rw [h.brLen]; exact hs.cursor.length, by rw [h.brLen]; exact hpos⟩
  order := h.brOrder.trans hs.order
  capacity := by rw [h.params]; exact hs.capacity

/-! ### A stream of stored blocks -/

/-- The cells of `m` from `p` on begin with the given bytes. -/
def BytesAt (m : Memory 8) (p : Nat) (bytes : List Byte) : Prop :=
  ∀ i, i < bytes.length → m.get (p + i) = bytes.getD i 0

theorem BytesAt.left {m : Memory 8} (h : BytesAt m p (bytes ++ more)) : BytesAt m p bytes := fun i hi => by
  rw [h i (by rw [List.length_append]; omega), List.getD_append _ _ _ _ hi]

theorem BytesAt.right {m : Memory 8} (h : BytesAt m p (bytes ++ more)) : BytesAt m (p + bytes.length) more :=
  fun i hi => by
  rw [Nat.add_assoc, h _ (by rw [List.length_append]; omega), List.getD_append_right _ _ _ _ (Nat.le_add_right _ _),
    Nat.add_sub_cancel_left]

@[simp] theorem length_storedBlockBytes (final : Bool) (x : List Byte) :
    (storedBlockBytes final x).length = 5 + x.length := by
  rw [storedBlockBytes, List.length_append]
  rfl

theorem toNat_bytes (n : BitVec 16) : (n.extractLsb' 0 8).toNat + 256 * (n.extractLsb' 8 8).toNat = n.toNat := by
  have hlt := n.isLt
  simp only [BitVec.extractLsb'_toNat, Nat.shiftRight_eq_div_pow]
  omega

/-- A number is the complement of its complement (R232). -/
theorem toNat_eq_not_xor (n : BitVec 16) : n.toNat = (~~~n).toNat ^^^ 0xFFFF := by
  have hnot : ~~~n ^^^ BitVec.allOnes 16 = n := by rw [BitVec.xor_allOnes, BitVec.not_not]
  exact (congrArg BitVec.toNat hnot).symm.trans (BitVec.toNat_xor ..)

/-- The header and the lengths of a stored block that begins at a byte boundary (R105). -/
structure StoredHeader (m : Memory 8) (p : Nat) (final : Bool) (n : BitVec 16) : Prop where
  header : m.get p = (BitVec.ofBool final).setWidth 8
  len : littleEndian16 m (p + 1) = n.toNat
  nlen : littleEndian16 m (p + 3) = (~~~n).toNat

theorem BytesAt.storedHeader {m : Memory 8} {final : Bool} {x : List Byte}
    (h : BytesAt m p (storedBlockBytes final x)) :
    StoredHeader m p final (BitVec.ofNat 16 x.length) where
  header := h 0 (by simp)
  len := by
    have h1 : m.get (p + 1) = (BitVec.ofNat 16 x.length).extractLsb' 0 8 := h 1 (by simp; omega)
    have h2 : m.get (p + 2) = (BitVec.ofNat 16 x.length).extractLsb' 8 8 := h 2 (by simp; omega)
    rw [littleEndian16, h1, h2, toNat_bytes]
  nlen := by
    have h3 : m.get (p + 3) = (~~~BitVec.ofNat 16 x.length).extractLsb' 0 8 := h 3 (by simp; omega)
    have h4 : m.get (p + 4) = (~~~BitVec.ofNat 16 x.length).extractLsb' 8 8 := h 4 (by simp; omega)
    rw [littleEndian16, h3, h4, toNat_bytes]

theorem BytesAt.storedData {m : Memory 8} {final : Bool} {x : List Byte} (h : BytesAt m p (storedBlockBytes final x)) :
    BytesAt m (p + 5) x := BytesAt.right (bytes := (storedBlockBytes final x).take 5) h

/-- A stored block at a byte boundary is fetched (R226). -/
theorem fetch_stored {final : Bool} (hs : Streaming s) (hv : s.work.level = .blkhdr) (hp : s.brPos.toNat = 8 * p)
    (hlen : p < s.brLen.toNat) (hb : s.ibuf.get p = (BitVec.ofBool final).setWidth 8) :
    fetch s = some (.ok (.blkStored final) (advance 3 s)) := by
  have hbits := hs.remainingBits
  have hbyte : ∀ i, i < 3 → ((BitVec.ofBool final).setWidth 8).getLsbD i = [final, false, false].getD i false := by
    cases final <;> decide
  have hbegins : StreamBegins s [final, false, false] := by
    refine ⟨by simp only [List.length_cons, List.length_nil]; omega, fun i hi => ?_⟩
    have hi8 : i < 8 := Nat.lt_trans hi (by simp)
    rw [hp, streamBit_byte_lsbFirst hs.order (Nat.mul_mod_right 8 p) hi8, Nat.mul_div_cancel_left p (by decide), hb]
    exact hbyte i hi
  rw [fetch_blkhdr hv, fetchHeader_of_begins hs.cursor hbegins, decodeBlockHeader_bits]
  rfl

/-- A stored block of a stream: its bytes join the output (R230 to R234). -/
theorem stored_reaches {final : Bool} {x : List Byte} (hs : Streaming s) (hv : s.work.level = .blkhdr)
    (hp : s.brPos.toNat = 8 * p) (hb : BytesAt s.ibuf p (storedBlockBytes final x)) (hx : x.length ≤ 65535)
    (hin : p + (5 + x.length) ≤ s.brLen.toNat) (hfit : out.length + x.length ≤ s.params.obufCap)
    (hout : HasOutput s out) :
    ∃ t, Reaches s (endBlock t) ∧ SameStream s t ∧ t.brPos.toNat = 8 * (p + (5 + x.length)) ∧
      HasOutput t (out ++ x) ∧ t.work.bfinal = final := by
  have hbits := hs.remainingBits
  obtain ⟨hheader, hlen, hnlen⟩ := hb.storedHeader
  have hn : (BitVec.ofNat 16 x.length).toNat = x.length := Nat.mod_eq_of_lt (by omega)
  have h3 : 3 ≤ remainingBits s := by omega
  have hpos := advance_brPos_toNat hs.cursor.length h3 hs.cursor.cursor
  have hstart : storedStart (advance 3 s) = p + 1 := by
    rw [storedStart, hpos]
    omega
  have hstoredLen : storedLen (advance 3 s) = x.length := by
    rw [storedLen, hstart]
    exact hlen.trans hn
  have hcomplement : storedLen (advance 3 s) = storedNlen (advance 3 s) ^^^ 0xFFFF := by
    rw [hstoredLen, storedNlen, hstart]
    exact hn.symm.trans ((toNat_eq_not_xor _).trans (congrArg (· ^^^ 0xFFFF) hnlen.symm))
  obtain ⟨t, hexec, hframe, htpos, holen, hcopied, hkept⟩ := exec_blkStored_fits (hs.advance h3) final
    (by rw [hstart, hstoredLen, advance_brLen]; omega)
    (by rw [hstoredLen, advance_olen, advance_params, hout.olen]; exact hfit) (.inl hcomplement)
  rw [hstoredLen] at holen hcopied htpos
  rw [hstart] at hcopied htpos
  have hwarn : storedWarn (advance 3 s) = s.warn := if_pos hcomplement
  refine ⟨t, .instr (fetch_stored hs hv hp (by omega) hheader) hexec, ?_, by omega, ?_, by rw [hframe]; rfl⟩
  · rw [hframe]
    exact ⟨rfl, rfl, rfl, rfl, rfl, rfl, hwarn⟩
  · exact hout.append holen (fun a ha => hkept a (.inl ha)) fun i hi => (hcopied i hi).trans (hb.storedData i hi)

/-- The blocks of a stream, one after another, to the end of the final one. -/
theorem storedStream_finishes {init : List (List Byte)} {last : List Byte} (hs : Streaming s)
    (hv : s.work.level = .blkhdr) (hp : s.brPos.toNat = 8 * p)
    (hb : BytesAt s.ibuf p (init.flatMap (storedBlockBytes false) ++ storedBlockBytes true last))
    (hinit : ∀ b ∈ init, b.length ≤ 65535) (hlast : last.length ≤ 65535)
    (hin : p + (init.flatMap (storedBlockBytes false) ++ storedBlockBytes true last).length ≤ s.brLen.toNat)
    (hfit : out.length + (init.flatten ++ last).length ≤ s.params.obufCap) (hout : HasOutput s out) :
    ∃ t, Finishes s (8 * (p + (init.flatMap (storedBlockBytes false) ++ storedBlockBytes true last).length))
      (out ++ (init.flatten ++ last)) t := by
  induction init generalizing s p out with
  | nil =>
    simp only [List.flatMap_nil, List.nil_append, List.flatten_nil, length_storedBlockBytes] at hb hin hfit ⊢
    obtain ⟨t, hreach, hsame, hpos, hout, hfinal⟩ := stored_reaches hs hv hp hb hlast hin hfit hout
    exact ⟨_, finishes_endBlock hfinal hreach hsame hpos hout⟩
  | cons b init ih =>
    obtain ⟨hblen, hinit⟩ := List.forall_mem_cons.1 hinit
    rw [List.flatMap_cons, List.append_assoc] at hb hin ⊢
    rw [List.flatten_cons, List.append_assoc] at hfit ⊢
    rw [List.length_append, length_storedBlockBytes] at hin ⊢
    rw [List.length_append] at hfit
    obtain ⟨t, hreach, hsame, hpos, hout, hfinal⟩ :=
      stored_reaches hs hv hp hb.left hblen (by omega) (by omega) hout
    have hrest := hb.right
    rw [length_storedBlockBytes] at hrest
    have hend : endBlock t = { t with work := { Work.idle with level := .blkhdr } } := by
      rw [endBlock, hfinal, if_neg Bool.false_ne_true]
    have hsame' := hsame.trans (endBlock_sameStream t)
    have hpos' : (endBlock t).brPos.toNat = 8 * (p + (5 + b.length)) := by rw [hend, hpos]
    obtain ⟨u, hu⟩ := ih (hs.of_same hsame' (by omega)) (by rw [hend]) hpos' (by rw [hsame'.ibuf]; exact hrest) hinit
      (by rw [hsame'.brLen]; omega) (by rw [hsame'.params, List.length_append]; omega) hout.endBlock
    rw [← Nat.add_assoc, ← List.append_assoc]
    exact ⟨u, hu.after hreach hsame'⟩

end

/-- Settles O27: the header, then the blocks from byte 2 on. -/
theorem storedStreamDecodes : Obligations.StoredStreamDecodes := by
  intro s cmf flg init last bytes x hparams hstatus ha hdict hinit hlast hlen hfit hbytes
  have hat : BytesAt s.ibuf 0 bytes := fun i hi => by rw [Nat.zero_add, hbytes i hi]
  have hcmf : s.ibuf.get 0 = cmf := hat 0 (by simp [bytes, storedStream])
  have hflg : s.ibuf.get 1 = flg := hat 1 (by simp [bytes, storedStream])
  have hblocks : BytesAt s.ibuf 2 (init.flatMap (storedBlockBytes false) ++ storedBlockBytes true last) :=
    BytesAt.right (p := 0) (bytes := [cmf, flg]) hat
  have hcount : bytes.length = 2 + (init.flatMap (storedBlockBytes false) ++ storedBlockBytes true last).length :=
    Nat.add_comm _ 2
  obtain ⟨t, hreach, hover, hdone, herr, hsame, hpos, hout⟩ :=
    storedStream_finishes (p := 2) (blocksBegin_streaming hparams ha (by omega)) rfl rfl hblocks hinit hlast
      (by rw [← hcount]; exact hlen) (by rw [List.length_nil, Nat.zero_add]; exact hfit) (blocksBegin_output s)
  have hexec := exec_inflate_of_blocks hparams hstatus ha (by omega) (by rw [hflg]; exact hdict) hreach hover
  refine ⟨t, hexec, hdone, herr, hout.olen, hout.bytes, by rw [hpos, hcount], ?_, hsame.brLen, hsame.brOrder,
    hsame.htValid, hsame.warn⟩
  rw [← hcmf, ← hflg]
  exact hsame.zhdr

end Sys2Proof.Machine

/-! ## DEFLATE: a stream of one fixed block (R235, R251 to R257, R351, R352) -/

namespace Sys2Proof.Machine

section
variable {s t : State} {pos n v : Nat} {bits rest : List Bool}

/-! ### Bits at the cursor -/

theorem getD_integerField {i : Nat} (hi : i < n) (v : Nat) : (integerField n v).getD i false = v.testBit i := by
  induction n generalizing i v with
  | zero => exact absurd hi (Nat.not_lt_zero i)
  | succ n ih =>
    cases i with
    | zero => rfl
    | succ i => rw [integerField, List.getD_cons_succ, ih (Nat.lt_of_succ_lt_succ hi), Nat.testBit_succ]

@[simp] theorem length_integerField (n v : Nat) : (integerField n v).length = n := by
  induction n generalizing v with
  | zero => rfl
  | succ n ih => rw [integerField, List.length_cons, ih]

theorem StreamBegins.integerSum_eq (h : StreamBegins s (integerField n v)) (hv : v < 2 ^ n) :
    integerSum s s.brPos.toNat n = v := by
  rw [← packInteger_eq_integerSum]
  refine Nat.eq_of_testBit_eq fun i => ?_
  rcases Nat.lt_or_ge i n with hi | hi
  · rw [testBit_packInteger s _ hi, h.2 i (by rwa [length_integerField]), getD_integerField hi]
  · have hpow := Nat.pow_le_pow_right Nat.two_pos hi
    rw [Nat.testBit_lt_two_pow (Nat.lt_of_lt_of_le (packInteger_lt s _ n) hpow),
      Nat.testBit_lt_two_pow (Nat.lt_of_lt_of_le hv hpow)]

/-- The cursor stands at bit `pos`, and the stream goes on from there with the given bits. -/
structure AtBits (s : State) (pos : Nat) (bits : List Bool) : Prop where
  cursor : CursorOk s
  brPos : s.brPos.toNat = pos
  begins : StreamBegins s bits

theorem AtBits.right (h : AtBits s pos (bits ++ rest)) : AtBits (advance bits.length s) (pos + bits.length) rest where
  cursor := ((advance_forward h.begins.left.1).cursor h.cursor).2
  brPos := by rw [advance_brPos_toNat h.cursor.length h.begins.left.1 h.cursor.cursor, h.brPos]
  begins := h.begins.right h.cursor

/-- Only the reader counts. -/
theorem AtBits.congr (h : AtBits s pos bits) (hi : t.ibuf = s.ibuf) (ho : t.brOrder = s.brOrder)
    (hl : t.brLen = s.brLen) (hp : t.brPos = s.brPos) : AtBits t pos bits where
  cursor := ⟨by rw [hl]; exact h.cursor.length, by rw [hl, hp]; exact h.cursor.cursor⟩
  brPos := by rw [hp, h.brPos]
  begins := by
    obtain ⟨hlen, hbits⟩ := h.begins
    refine ⟨by rwa [remainingBits, hl, hp], fun i hlt => ?_⟩
    rw [hp, streamBit_congr hi ho, hbits i hlt]

/-- An integer field at the cursor. -/
theorem AtBits.integer (h : AtBits s pos (integerField n v ++ rest)) (hv : v < 2 ^ n) :
    n ≤ remainingBits s ∧ integerSum s s.brPos.toNat n = v ∧ AtBits (advance n s) (pos + n) rest := by
  have hlen := h.begins.left.1
  have hright := h.right
  rw [length_integerField] at hlen hright
  exact ⟨hlen, h.begins.left.integerSum_eq hv, hright⟩

/-- A code field at the cursor. -/
theorem AtBits.code (h : AtBits s pos (codeField n v ++ rest)) (hv : v < 2 ^ n) :
    readCode n s = .ok v (advance n s) ∧ AtBits (advance n s) (pos + n) rest := by
  have hlen := h.begins.left.1
  have hright := h.right
  have hfield := h.begins.left.codeField_packCode (m := n) (by rw [length_codeField])
  rw [length_codeField] at hlen hright
  rw [List.take_of_length_le (by rw [length_codeField])] at hfield
  exact ⟨by rw [readCode_of_le hlen, codeField_inj (packCode_lt s _ n) hv hfield], hright⟩

/-! ### The symbols of a fixed block (R114, R115) -/

/-- A fixed literal/length code decodes to its symbol, whatever else the state is (R113, R114). -/
theorem decodeOne_fixedCode (hc : CursorOk s) (ht : s.slotLL = buildTable fixedLens) (hn : n < 288)
    (hbits : StreamBegins s (fixedCode n)) :
    decodeOne 1 s = .ok (BitVec.ofNat 9 n) (advance (fixedCode n).length s) := by
  have hsym : (BitVec.ofNat 9 n).toNat = n := Nat.mod_eq_of_lt (hn.trans (by decide))
  have hcoded : fixedLens.getD n 0 ≠ 0 := by
    rw [getD_fixedLens hn]
    split_ifs <;> decide
  obtain ⟨tab, htab⟩ := exists_fixedTable
  have hdecode := decodeOne_symbolBits (slot := 1) (sym := BitVec.ofNat 9 n) fixedLens_le
    (fixedLens_length.trans (slotSize_le 1)) kraftSum_fixedLens.le htab hc (ht.trans htab) (hsym.symm ▸ hcoded)
  rw [hsym, symbolBits_fixedLens hn] at hdecode
  exact hdecode hbits

theorem decodeLitLen_length : ∀ li < 29,
    (decodeLitLen (BitVec.ofNat 9 (257 + li)), lengthTable.getD li (0, 0)) ∈ lengthInstrs.zip lengthTable := by decide

theorem decodeDistance_row : ∀ di < 30,
    (decodeDistance (BitVec.ofNat 5 di), distanceTable.getD di (0, 0)) ∈ distanceInstrs.zip distanceTable := by decide

/-! ### The bytes of a copy (R352) -/

/-- A copy that fits: byte `j` of it is byte `OLEN - d + (j mod d)` of the output before it. -/
theorem copy_fits {d : Nat} (hcap : s.params.obufCap < 2 ^ 32) (hd : 1 ≤ d) (hin : d ≤ s.olen.toNat)
    (hfit : s.olen.toNat + n ≤ s.params.obufCap) :
    ∃ t, copy n d s = .ok () t ∧ t = { s with obuf := t.obuf, olen := t.olen } ∧ t.olen.toNat = s.olen.toNat + n ∧
      (∀ a, a < s.olen.toNat ∨ s.olen.toNat + n ≤ a → t.obuf.get a = s.obuf.get a) ∧
      ∀ j, j < n → t.obuf.get (s.olen.toNat + j) = s.obuf.get (s.olen.toNat - d + j % d) := by
  obtain ⟨t, ht, holen, hbelow, habove, hback⟩ := copyLoop_fits hcap hd hfit
  have hcopy : copy n d s = .ok () t := (if_neg (Nat.not_lt.2 hin)).trans ht
  have hstate := copy_state n d s
  rw [hcopy, Res.state_ok] at hstate
  refine ⟨t, hcopy, hstate, holen, fun a ha => ha.elim (hbelow a) (habove a), fun j => ?_⟩
  induction j using Nat.strong_induction_on with
  | h j ih =>
    intro hj
    rw [hback hin j hj]
    rcases Nat.lt_or_ge j d with hlt | hge
    · rw [hbelow _ (by omega), Nat.mod_eq_of_lt hlt, Nat.sub_add_comm hin]
    · rw [Nat.add_sub_assoc hge, ih (j - d) (by omega) (by omega), Nat.mod_eq_sub_mod hge]

end

/-! ### What the items of a block add (R350 to R352) -/

theorem getD_map_range {f : Nat → Byte} {i n : Nat} (hi : i < n) : ((List.range n).map f).getD i 0 = f i := by
  rw [List.getD_eq_getElem _ _ (by simpa using hi), List.getElem_map, List.getElem_range]

/-- What an item adds to the output `out`, for a match that reaches no further back than `out`. -/
def Item.added (out : List Byte) : Item → List Byte
  | .literal b => [b]
  | .backref li le di de =>
    (List.range ((lengthTable.getD li (0, 0)).2 + le)).map fun i =>
      out.getD (out.length - ((distanceTable.getD di (0, 0)).2 + de) +
        i % ((distanceTable.getD di (0, 0)).2 + de)) 0

theorem Item.expand_eq {out out' : List Byte} {y : Item} (h : y.expand out = some out') :
    out' = out ++ y.added out := by
  cases y with
  | literal b =>
    cases h
    rfl
  | backref li le di de =>
    simp only [Item.expand, Option.ite_none_right_eq_some, Option.some.injEq] at h
    exact h.2.symm

/-- Expanding the first item, then the others. -/
theorem expandItems_cons {out x : List Byte} {y : Item} {ys : List Item} (h : expandItems out (y :: ys) = some x) :
    y.expand out = some (out ++ y.added out) ∧ expandItems (out ++ y.added out) ys = some x := by
  rw [expandItems] at h
  cases hy : y.expand out with
  | none => simp [hy] at h
  | some out' =>
    rw [← Item.expand_eq hy]
    simpa [hy] using h

theorem length_le_of_expandItems {out x : List Byte} {ys : List Item} (h : expandItems out ys = some x) :
    out.length ≤ x.length := by
  induction ys generalizing out with
  | nil =>
    cases h
    exact Nat.le_refl _
  | cons y ys ih =>
    have hle := ih (expandItems_cons h).2
    rw [List.length_append] at hle
    omega

section
variable {s t : State} {pos : Nat} {rest : List Bool} {out : List Byte}

/-- In the symbol loop of a final fixed block, with the given bits to come and the given output so far. -/
structure InFixedBlock (s : State) (pos : Nat) (bits : List Bool) (out : List Byte) : Prop extends
    AtBits s pos bits, HasOutput s out where
  work : s.work = { Work.idle with level := .llsym, bfinal := true, fixedDist := true }
  table : s.slotLL = buildTable fixedLens
  capacity : s.params.obufCap < 2 ^ 32

/-- The symbol whose code stands at the cursor is fetched (R257). -/
theorem InFixedBlock.fetch_symbol {n : Nat} (h : InFixedBlock s pos (fixedCode n ++ rest) out) (hn : n < 288) :
    fetch s = some (.ok (decodeLitLen (BitVec.ofNat 9 n)) (advance (fixedCode n).length s)) := by
  have hfetch : fetch s = some (fetchLitLen s) := by rw [fetch, h.work]
  rw [hfetch, fetchLitLen, decodeOne_fixedCode h.cursor h.table hn h.begins.left, Res.andThen_ok]

/-- A literal of a fixed block (R251). -/
theorem InFixedBlock.literal {b : Byte} (h : InFixedBlock s pos (fixedCode b.toNat ++ rest) out)
    (hfit : out.length < s.params.obufCap) :
    ∃ t, Reaches s t ∧ SameStream s t ∧ InFixedBlock t (pos + (fixedCode b.toNat).length) rest (out ++ [b]) := by
  have hfetch := h.fetch_symbol (Nat.lt_trans b.isLt (by decide))
  have hat := h.right
  rw [BitVec.ofNat_toNat, decodeLitLen_lit] at hfetch
  generalize (fixedCode b.toNat).length = n at hfetch hat ⊢
  have hlt : (advance n s).olen.toNat < (advance n s).params.obufCap := h.olen ▸ hfit
  have hexec : exec (.lit b) (advance n s) = .next { advance n s with
      obuf := s.obuf.set s.olen.toNat b, olen := s.olen + 1 } := congrArg settleInflate (append_of_lt hlt)
  refine ⟨_, .instr hfetch hexec, ⟨rfl, rfl, rfl, rfl, rfl, rfl, rfl⟩,
    ⟨hat.congr rfl rfl rfl rfl, h.toHasOutput.append (more := [b]) (toNat_olen_succ h.capacity hlt)
      (fun a ha => Memory.get_set_other _ _ (Nat.ne_of_gt ha)) fun i hi => ?_, h.work, h.table, h.capacity⟩⟩
  obtain rfl : i = 0 := Nat.lt_one_iff.1 hi
  exact Memory.get_set_same ..

/-- A length symbol of a fixed block: the match's length is held, and the distance symbol comes next (R253). -/
theorem InFixedBlock.lengthSymbol {li le : Nat} (hli : li < 29) (hle : le < 2 ^ (lengthTable.getD li (0, 0)).1)
    (h : InFixedBlock s pos (fixedCode (257 + li) ++ (integerField (lengthTable.getD li (0, 0)).1 le ++ rest)) out) :
    ∃ t, Reaches s t ∧ AtBits t (pos + (fixedCode (257 + li)).length + (lengthTable.getD li (0, 0)).1) rest ∧
      t = { s with
        brPos := t.brPos
        work := { s.work with level := .dsym, length := (lengthTable.getD li (0, 0)).2 + le } } := by
  have hfetch := h.fetch_symbol (by omega)
  have hexec := exec_lengthInstrs _ (decodeLitLen_length li hli)
  have hat := h.right
  generalize (fixedCode (257 + li)).length = n at hfetch hat ⊢
  generalize lengthTable.getD li (0, 0) = row at *
  obtain ⟨hbits, hsum, hnext⟩ := hat.integer hle
  refine ⟨_, .instr hfetch ((congrFun hexec _).trans (lengthSymbol_of_le hbits row.2)), hnext.congr rfl rfl rfl rfl, ?_⟩
  rw [hsum]
  rfl

/-- A distance symbol of a fixed block: the match is copied (R255, R351, R352). -/
theorem AtBits.distanceSymbol {di de : Nat} (hdi : di < 30) (hde : de < 2 ^ (distanceTable.getD di (0, 0)).1)
    (h : AtBits s pos (codeField 5 di ++ (integerField (distanceTable.getD di (0, 0)).1 de ++ rest)))
    (hv : s.work.level = .dsym) (hfixed : s.work.fixedDist = true) (hcap : s.params.obufCap < 2 ^ 32)
    (hin : (distanceTable.getD di (0, 0)).2 + de ≤ s.olen.toNat)
    (hfit : s.olen.toNat + s.work.length ≤ s.params.obufCap) :
    ∃ t, Reaches s t ∧ AtBits t (pos + 5 + (distanceTable.getD di (0, 0)).1) rest ∧
      t = { s with
        brPos := t.brPos, obuf := t.obuf, olen := t.olen, work := { s.work with level := .llsym, length := 0 } } ∧
      t.olen.toNat = s.olen.toNat + s.work.length ∧ (∀ a, a < s.olen.toNat → t.obuf.get a = s.obuf.get a) ∧
      ∀ j, j < s.work.length → t.obuf.get (s.olen.toNat + j) =
        s.obuf.get (s.olen.toNat - ((distanceTable.getD di (0, 0)).2 + de) +
          j % ((distanceTable.getD di (0, 0)).2 + de)) := by
  obtain ⟨hcode, hat⟩ := h.code (Nat.lt_trans hdi (by decide))
  have hfetch := fetch_fixedDist hv hfixed
  rw [hcode, Res.andThen_ok] at hfetch
  have hrow := decodeDistance_row di hdi
  have hexec := exec_distanceInstrs _ hrow
  have hpos := distanceTable_pos _ hrow
  generalize distanceTable.getD di (0, 0) = row at *
  obtain ⟨hbits, hsum, hnext⟩ := hat.integer hde
  obtain ⟨u, hcopy, hframe, holen, hkept, hcopied⟩ :=
    copy_fits (s := advance row.1 (advance 5 s)) (n := s.work.length) hcap (Nat.le_add_right_of_le hpos) hin hfit
  have hmeaning := (congrFun hexec (advance 5 s)).trans (distanceSymbol_of_le hbits row.2)
  rw [hsum, advance_work, hcopy, Res.andThen_ok, settleInflate_ok] at hmeaning
  refine ⟨_, .instr hfetch hmeaning, hnext.congr ?_ ?_ ?_ ?_, ?_, holen, fun a ha => hkept a (.inl ha), hcopied⟩
  all_goals rw [hframe]
  rfl

/-- A match of a fixed block. -/
theorem InFixedBlock.backref {li le di de : Nat}
    (h : InFixedBlock s pos ((Item.backref li le di de).fixedBits ++ rest) out)
    (hok : (Item.backref li le di de).ok) (hin : (distanceTable.getD di (0, 0)).2 + de ≤ out.length)
    (hfit : (out ++ (Item.backref li le di de).added out).length ≤ s.params.obufCap) :
    ∃ t, Reaches s t ∧ SameStream s t ∧
      InFixedBlock t (pos + (Item.backref li le di de).fixedBits.length) rest
        (out ++ (Item.backref li le di de).added out) := by
  obtain ⟨hli, hle, hdi, hde⟩ := hok
  have hpos : 1 ≤ (distanceTable.getD di (0, 0)).2 := distanceTable_pos _ (decodeDistance_row di hdi)
  have hlen : ((Item.backref li le di de).added out).length = (lengthTable.getD li (0, 0)).2 + le := by
    rw [Item.added, List.length_map, List.length_range]
  rw [List.length_append, hlen, ← h.olen] at hfit
  simp only [Item.fixedBits, List.append_assoc] at h
  obtain ⟨t, hst, hat, hframe⟩ := h.lengthSymbol hli hle
  have hwork : t.work = { s.work with level := .dsym, length := (lengthTable.getD li (0, 0)).2 + le } := by rw [hframe]
  have hobuf : t.obuf = s.obuf := by rw [hframe]
  have holen : t.olen = s.olen := by rw [hframe]
  have hparams : t.params = s.params := by rw [hframe]
  obtain ⟨u, htu, hatu, hframeU, holenU, hkept, hcopied⟩ := hat.distanceSymbol hdi hde (by rw [hwork])
    (by rw [hwork, h.work]) (by rw [hparams]; exact h.capacity) (by rw [holen, h.olen]; exact hin)
    (by rw [holen, hwork, hparams]; exact hfit)
  rw [hframe] at hframeU
  rw [hwork] at holenU hcopied
  rw [holen] at holenU hkept hcopied
  rw [hobuf] at hkept hcopied
  have hlength : pos + (Item.backref li le di de).fixedBits.length =
      pos + (fixedCode (257 + li)).length + (lengthTable.getD li (0, 0)).1 + 5 +
        (distanceTable.getD di (0, 0)).1 := by
    simp only [Item.fixedBits, List.length_append, length_integerField, length_codeField, Nat.add_assoc]
  have houtput := h.toHasOutput.append (t := u) (more := (Item.backref li le di de).added out) (by rw [holenU, hlen])
    hkept fun i hi => by
      rw [hlen] at hi
      have hmod : i % ((distanceTable.getD di (0, 0)).2 + de) < (distanceTable.getD di (0, 0)).2 + de :=
        Nat.mod_lt _ (by omega)
      rw [hcopied i hi, h.olen, h.bytes _ (by omega), Item.added, getD_map_range hi]
  rw [hlength]
  refine ⟨u, hst.trans htu, ?_, hatu, houtput, ?_, ?_, ?_⟩
  · rw [hframeU]
    exact ⟨rfl, rfl, rfl, rfl, rfl, rfl, rfl⟩
  · rw [hframeU]
    exact congrArg (fun w : Work => { w with level := .llsym, length := 0 }) h.work
  · rw [hframeU]
    exact h.table
  · rw [hframeU]
    exact h.capacity

theorem InFixedBlock.item {y : Item} (h : InFixedBlock s pos (y.fixedBits ++ rest) out) (hok : y.ok)
    (hx : y.expand out = some (out ++ y.added out)) (hfit : (out ++ y.added out).length ≤ s.params.obufCap) :
    ∃ t, Reaches s t ∧ SameStream s t ∧ InFixedBlock t (pos + y.fixedBits.length) rest (out ++ y.added out) := by
  cases y with
  | literal b =>
    rw [List.length_append] at hfit
    exact h.literal hfit
  | backref li le di de =>
    simp only [Item.expand, Option.ite_none_right_eq_some] at hx
    exact h.backref hok hx.1 hfit

/-- The header of a final fixed block enters its symbol loop (R226, R235). -/
theorem AtBits.enters_fixedBlock (h : AtBits s pos ([true, true, false] ++ rest)) (hv : s.work.level = .blkhdr)
    (hcap : s.params.obufCap < 2 ^ 32) (hout : HasOutput s out) :
    ∃ t, Reaches s t ∧ SameStream s t ∧ InFixedBlock t (pos + 3) rest out := by
  have hfetch : fetch s = some (.ok (.blkFixed true) (advance 3 s)) := by
    rw [fetch_blkhdr hv, fetchHeader_of_begins h.cursor h.begins.left, decodeBlockHeader_bits]
    rfl
  obtain ⟨tab, htab, hexec⟩ := fixedBlockEntered (advance 3 s) true
  exact ⟨_, .instr hfetch hexec, ⟨rfl, rfl, rfl, rfl, rfl, rfl, rfl⟩,
    ⟨h.right.congr rfl rfl rfl rfl, ⟨hout.olen, hout.bytes⟩, rfl, htab.symm, hcap⟩⟩

/-- The symbol loop of a final fixed block runs to the end of the command (R252, R257). -/
theorem InFixedBlock.finishes {ys : List Item} {x : List Byte}
    (h : InFixedBlock s pos (ys.flatMap Item.fixedBits ++ fixedCode 256) out) (hok : ∀ y ∈ ys, y.ok)
    (hx : expandItems out ys = some x) (hfit : x.length ≤ s.params.obufCap) :
    ∃ t, Finishes s (pos + (ys.flatMap Item.fixedBits ++ fixedCode 256).length) x t := by
  induction ys generalizing s pos out with
  | nil =>
    obtain rfl : out = x := Option.some.inj hx
    rw [List.flatMap_nil, List.nil_append] at h ⊢
    have hend : InFixedBlock s pos (fixedCode 256 ++ []) out := by rwa [List.append_nil]
    have hfetch : fetch s = some (.ok .eob (advance (fixedCode 256).length s)) := hend.fetch_symbol (by decide)
    have hbfinal : s.work.bfinal = true := by rw [h.work]
    exact ⟨_, finishes_endBlock (t := advance (fixedCode 256).length s) hbfinal (.instr hfetch rfl)
      ⟨rfl, rfl, rfl, rfl, rfl, rfl, rfl⟩ hend.right.brPos ⟨h.olen, h.bytes⟩⟩
  | cons y ys ih =>
    obtain ⟨hy, hys⟩ := List.forall_mem_cons.1 hok
    obtain ⟨hexpand, hrest⟩ := expandItems_cons hx
    rw [List.flatMap_cons, List.append_assoc] at h ⊢
    obtain ⟨t, hreach, hsame, ht⟩ := h.item hy hexpand ((length_le_of_expandItems hrest).trans hfit)
    obtain ⟨u, hu⟩ := ih ht hys hrest (by rwa [hsame.params])
    rw [List.length_append, ← Nat.add_assoc]
    exact ⟨u, hu.after hreach hsame⟩

end

/-- Settles O28: the block header, then the items and the end of the block. -/
theorem fixedStreamDecodes : Obligations.FixedStreamDecodes := by
  intro s items x bits hparams hstatus ha hdict hok hx hfit hlen hbits
  have hcount : bits.length = 3 + (items.flatMap Item.fixedBits ++ fixedCode 256).length := by
    simp only [bits, List.length_append, List.length_cons, List.length_nil]
    omega
  have hs := blocksBegin_streaming hparams ha (by omega)
  have hbegin : AtBits (blocksBegin s) 16 ([true, true, false] ++ (items.flatMap Item.fixedBits ++ fixedCode 256)) := by
    rw [← List.append_assoc]
    refine ⟨hs.cursor, rfl, ?_, fun i hi => (streamBit_lsbFirst hs.order _).trans (hbits i hi)⟩
    have hrest := hs.remainingBits
    have hpos : (blocksBegin s).brPos.toNat = 16 := rfl
    have hbytes : (blocksBegin s).brLen = s.arg0 := rfl
    rw [hpos, hbytes] at hrest
    change bits.length ≤ remainingBits (blocksBegin s)
    omega
  obtain ⟨u, hsu, hsame, hu⟩ := hbegin.enters_fixedBlock rfl (params_bounds hparams).2 (blocksBegin_output s)
  obtain ⟨t, ht⟩ := hu.finishes hok hx (by rwa [hsame.params])
  obtain ⟨hreach, hover, hdone, herr, -, hpos, hout⟩ := ht.after hsu hsame
  refine ⟨t, exec_inflate_of_blocks hparams hstatus ha (by omega) hdict hreach hover, hdone, herr, hout.olen,
    hout.bytes, ?_⟩
  rw [hpos, hcount, Nat.add_assoc]

end Sys2Proof.Machine

/-! ## DEFLATE: the output of a literal and of a distance symbol (45_lz77.md) -/

namespace Sys2Proof.Machine

/-- Settles O39: the byte and the length of an `append` that finds room, and the failure of one that does not. -/
theorem literalAppended : Obligations.LiteralAppended := by
  refine fun v s => ⟨fun hroom => ?_, fun hfull => ?_⟩
  · have hexec : exec (.lit v) s = .next { s with obuf := s.obuf.set s.olen.toNat v, olen := s.olen + 1 } :=
      congrArg settleInflate (append_of_lt hroom)
    exact ⟨_, hexec, rfl, Memory.get_set_same .., fun a ha => Memory.get_set_other _ _ ha.symm⟩
  · have happend : append v s = .fail .bufferOverflow s := if_pos hfull.ge
    exact faults_of_unspoiled happend rfl

theorem distanceTable_le : ∀ p ∈ distanceInstrs.zip distanceTable, p.2.2 + 2 ^ p.2.1 ≤ 32769 := by decide

/-- A distance symbol whose extra field is there and whose copy fits (R255, R351, R352). -/
theorem distanceSymbol_copies {extra base : Nat} {s : State} (hbits : extra ≤ remainingBits s)
    (hcap : s.params.obufCap < 2 ^ 32) (hpos : 1 ≤ base + integerSum s s.brPos.toNat extra)
    (hin : base + integerSum s s.brPos.toNat extra ≤ s.olen.toNat)
    (hfit : s.olen.toNat + s.work.length ≤ s.params.obufCap) :
    ∃ t, distanceSymbol extra base s = .next t ∧
      t = { advance extra s with
        obuf := t.obuf, olen := t.olen, work := { s.work with level := .llsym, length := 0 } } ∧
      t.olen.toNat = s.olen.toNat + s.work.length ∧
      (∀ a, a < s.olen.toNat ∨ s.olen.toNat + s.work.length ≤ a → t.obuf.get a = s.obuf.get a) ∧
      ∀ j, j < s.work.length → t.obuf.get (s.olen.toNat + j) =
        s.obuf.get (s.olen.toNat - (base + integerSum s s.brPos.toNat extra) +
          j % (base + integerSum s s.brPos.toNat extra)) := by
  obtain ⟨u, hcopy, hframe, holen, hkept, hcopied⟩ := copy_fits (s := advance extra s) hcap hpos hin hfit
  have hmeaning := distanceSymbol_of_le hbits base
  rw [hcopy, Res.andThen_ok, settleInflate_ok] at hmeaning
  refine ⟨_, hmeaning, ?_, holen, hkept, hcopied⟩
  rw [hframe]
  rfl

/-- Settles O42: the row of the symbol bounds the distance, and the copy is the one of `copy_fits`. -/
theorem distanceSymbols : Obligations.DistanceSymbols := by
  intro i extra base hrow s hparams _ hbits
  have hexec : exec i = distanceSymbol extra base := exec_distanceInstrs _ hrow
  have hmin : 1 ≤ base := distanceTable_pos _ hrow
  have hmax : base + 2 ^ extra ≤ 32769 := distanceTable_le _ hrow
  have hlt := integerSum_lt s s.brPos.toNat extra
  have hcap := (params_bounds hparams).2
  have hpos : 1 ≤ base + integerSum s s.brPos.toNat extra := Nat.le_add_right_of_le hmin
  refine ⟨hpos, by omega, fun hin hfit => ?_⟩
  obtain ⟨t, ht, hframe, holen, hkept, hcopied⟩ := distanceSymbol_copies hbits hcap hpos hin hfit
  have hword : t.olen = s.olen + BitVec.ofNat 32 s.work.length := by
    apply BitVec.eq_of_toNat_eq
    rw [holen, BitVec.toNat_add, BitVec.toNat_ofNat]
    omega
  rw [hword] at hframe
  exact ⟨t, hexec ▸ ht, hframe, hcopied, hkept⟩

end Sys2Proof.Machine

/-! ## The defilter (R360 to R372) -/

namespace Sys2Proof.Machine

/-! ### The Paeth predictor (R368) -/

/-- Settles O52: the two tests of `paeth`, in their order. -/
theorem paethNearest : Obligations.PaethNearest := by
  intro a b c
  dsimp only [paeth]
  split
  case isTrue ha => exact .inl ⟨rfl, ha⟩
  case isFalse ha =>
    split
    case isTrue hb => exact .inr (.inl ⟨rfl, by omega, hb⟩)
    case isFalse hc => exact .inr (.inr ⟨rfl, by omega, by omega⟩)

section
variable {s : State} {m m' : Memory 8} {pred : Predictor} {r i j k n : Nat}

/-! ### Operands (R360, R361) -/

theorem channels_eq (s : State) : channels s = s.arg2.toNat % 256 := by
  simp [channels]

theorem depth_eq (s : State) : depth s = s.arg2.toNat / 256 % 256 := by
  simp [depth, Nat.shiftRight_eq_div_pow]

theorem bytesPerPixel_pos (hc : 1 ≤ channels s) : 1 ≤ bytesPerPixel s :=
  Nat.mul_pos hc (Nat.le_max_left 1 _)

theorem defilterCheck_badCommand (h : rowBytes s = 0 ∨ channels s = 0 ∨ s.olen.toNat < nRows s * rowBytes s) :
    defilterCheck s = some .badCommand := by
  rw [← or_assoc] at h
  unfold defilterCheck
  split
  · rfl
  · exact if_pos (h.resolve_left ‹_›)

/-- Where the checks before the last one pass, the last one decides. -/
theorem defilterCheck_of_present (hb : rowBytes s ≠ 0) (hc : channels s ≠ 0)
    (hin : nRows s * rowBytes s ≤ s.olen.toNat) :
    defilterCheck s = if s.params.rbufCap < nRows s * rowWidth s then some .bufferOverflow else none := by
  rw [defilterCheck, if_neg (not_or.2 ⟨hb, hc⟩), if_neg (Nat.not_lt.2 hin)]

theorem exec_defilter_of_check {f : Failure} (hs : s.status ≠ .fault) (hf : defilterCheck s = some f) :
    exec .defilter s = .next (raise f s) := by
  simp only [exec, execDefilter, if_neg hs, hf]

/-! ### One row (R362 to R368) -/

@[simp] theorem toNat_reconByte (pred : Predictor) (s : State) (r i : Nat) :
    (reconByte pred s r i).toNat = (filtered s r i + pred (leftOf s r i) (upOf s r i) (upLeftOf s r i)) % 256 :=
  BitVec.toNat_ofNat ..

/-- A byte's neighbours lie below it in `RBUF` (R79), so what stands from the byte on does not matter to it. -/
theorem reconByte_setRbuf (hc : 1 ≤ channels s) (hi : i < rowWidth s)
    (h : ∀ a, a < r * rowWidth s + i → m.get a = s.rbuf.get a) :
    reconByte pred { s with rbuf := m } r i = reconByte pred s r i := by
  have hbpp := bytesPerPixel_pos hc
  have hrecon (r' i' : Nat) (hlt : r' * rowWidth s + i' < r * rowWidth s + i) :
      recon { s with rbuf := m } r' i' = recon s r' i' := congrArg BitVec.toNat (h _ hlt)
  have habove (i' : Nat) (hr : 1 ≤ r) (hi' : i' ≤ i) : (r - 1) * rowWidth s + i' < r * rowWidth s + i := by
    have hrow := Nat.succ_mul (r - 1) (rowWidth s)
    rw [Nat.succ_eq_add_one, Nat.sub_add_cancel hr] at hrow
    omega
  have hbefore (hle : bytesPerPixel s ≤ i) : i - bytesPerPixel s < i := by omega
  have hleft : leftOf { s with rbuf := m } r i = leftOf s r i :=
    ite_congr rfl (fun hle => hrecon _ _ (Nat.add_lt_add_left (hbefore hle) _)) fun _ => rfl
  have hup : upOf { s with rbuf := m } r i = upOf s r i :=
    ite_congr rfl (fun hr => hrecon _ _ (habove i hr (Nat.le_refl i))) fun _ => rfl
  have hupLeft : upLeftOf { s with rbuf := m } r i = upLeftOf s r i :=
    ite_congr rfl (fun hr => hrecon _ _ (habove _ hr.1 (Nat.sub_le ..))) fun _ => rfl
  rw [reconByte, hleft, hup, hupLeft]
  rfl

/-- Every byte that the inner loop writes is the byte of its neighbours as the loop leaves them. -/
theorem reconRow_get_inside (hc : 1 ≤ channels s) (hn : i + n ≤ rowWidth s) (hij : i ≤ j) (hj : j < i + n) :
    (reconRow pred r n i s).rbuf.get (r * rowWidth s + j) = reconByte pred (reconRow pred r n i s) r j := by
  induction n generalizing i s with
  | zero => omega
  | succ n ih =>
    rcases Nat.eq_or_lt_of_le hij with rfl | hlt
    · have hbyte : reconByte pred (reconRow pred r (n + 1) i s) r i = reconByte pred s r i := by
        rw [reconRow_state]
        exact reconByte_setRbuf hc (by omega) fun a ha => reconRow_get_outside pred r (n + 1) i s (.inl ha)
      have hcell : r * rowWidth s + i < r * rowWidth s + (i + 1) := by omega
      rw [hbyte, reconRow, reconRow_get_outside]
      · exact Memory.get_set_same ..
      · exact .inl hcell
    · have hrest : i + 1 + n ≤ rowWidth s := by omega
      rw [reconRow]
      exact ih hc hrest hlt (by omega)

/-- `m` is the `RBUF` of `s` after row `r`: each byte of the row by its predictor, the rest as it was. -/
structure RowWritten (pred : Predictor) (s : State) (r : Nat) (m : Memory 8) : Prop where
  bytes : ∀ i, i < rowWidth s → m.get (r * rowWidth s + i) = reconByte pred { s with rbuf := m } r i
  kept : ∀ a, a < r * rowWidth s ∨ r * rowWidth s + rowWidth s ≤ a → m.get a = s.rbuf.get a

theorem filterRow_eq (pred : Predictor) (hc : 1 ≤ channels s) :
    ∃ m, filterRow pred s = .next (nextRow { s with rbuf := m }) ∧ RowWritten pred s s.work.row m := by
  have hstate := reconRow_state pred s.work.row (rowWidth s) 0 s
  refine ⟨_, by rw [filterRow, ← hstate], fun i hi => ?_, fun a ha => ?_⟩
  · rw [← hstate]
    exact reconRow_get_inside hc (Nat.le_of_eq (Nat.zero_add _)) (Nat.zero_le i) (by omega)
  · exact reconRow_get_outside pred _ _ 0 s ha

theorem exec_filterInstrs : ∀ p ∈ filterInstrs, exec p.1 = filterRow p.2 := by
  simp only [filterInstrs, List.forall_mem_cons, List.not_mem_nil, false_implies, implies_true, and_true]
  and_intros <;> rfl

/-! ### The rows of a command (R363) -/

/-- The tag of row `r`. -/
def rowTag (s : State) (r : Nat) : Byte := s.obuf.get (r * rowBytes s)

/-- The predictor that the tag of row `r` selects. -/
def rowPredictor (s : State) (r : Nat) : Predictor := predictorOf (rowTag s r).toNat

/-- A legal tag is the filter instruction of its predictor (R364 to R368). -/
theorem decodeFilterTag_mem {tag : Byte} (h : tag.toNat ≤ 4) :
    (decodeFilterTag tag, predictorOf tag.toNat) ∈ filterInstrs := by
  unfold decodeFilterTag
  generalize tag.toNat = v at h
  interval_cases v <;> simp [filterInstrs, predictorOf]

/-- The `DEFILTER` of `s` with row `k` next and `m` in `RBUF`. -/
def atRow (s : State) (k : Nat) (m : Memory 8) : State :=
  { enterRows s with rbuf := m, work := { Work.idle with level := .ftag, row := k } }

/-- The `DEFILTER` of `s` after `k` rows: the next one, or the end of the command. -/
def afterRows (s : State) (k : Nat) (m : Memory 8) : State :=
  if k < nRows s then atRow s k m else completeDefilter { s with rbuf := m }

theorem nextRow_atRow (s : State) (k : Nat) (m : Memory 8) : nextRow (atRow s k m) = afterRows s (k + 1) m := rfl

theorem fetch_atRow (s : State) (k : Nat) (m : Memory 8) :
    fetch (atRow s k m) = some (.ok (decodeFilterTag (rowTag s k)) (atRow s k m)) := rfl

/-- `DEFILTER` past its checks is the run of its rows, of which there may be none. -/
theorem exec_defilter_of_operands (hs : s.status ≠ .fault) (hb : rowBytes s ≠ 0) (hc : channels s ≠ 0)
    (hin : nRows s * rowBytes s ≤ s.olen.toNat) (hout : nRows s * rowWidth s ≤ s.params.rbufCap) :
    exec .defilter s = runStream (nRows s) (afterRows s 0 s.rbuf) := by
  have hcheck : defilterCheck s = none := by
    rw [defilterCheck_of_present hb hc hin, if_neg (Nat.not_lt.2 hout)]
  simp only [exec, execDefilter, if_neg hs, hcheck, afterRows]
  rcases Nat.eq_zero_or_pos (nRows s) with hzero | hpos
  · rw [if_pos hzero, if_neg (by omega), hzero]
    rfl
  · rw [if_neg (by omega), if_pos hpos]
    rfl

/-- A row with a legal tag is written and the next one follows. -/
theorem runStream_row (hc : 1 ≤ channels s) (htag : (rowTag s k).toNat ≤ 4) :
    ∃ m', runStream 1 (atRow s k m) = .next (afterRows s (k + 1) m') ∧
      RowWritten (rowPredictor s k) { s with rbuf := m } k m' := by
  obtain ⟨m', hrow, hwritten⟩ := filterRow_eq (s := atRow s k m) (rowPredictor s k) hc
  have hexec : exec (decodeFilterTag (rowTag s k)) = filterRow (rowPredictor s k) :=
    exec_filterInstrs _ (decodeFilterTag_mem htag)
  exact ⟨m', runStream_succ 0 (fetch_atRow s k m) ((congrFun hexec _).trans hrow), hwritten.bytes, hwritten.kept⟩

/-- `m` is the `RBUF` of `s` after the first `k` rows of its `DEFILTER`. -/
structure RowsWritten (s : State) (k : Nat) (m : Memory 8) : Prop where
  bytes : ∀ r i, r < k → i < rowWidth s →
    m.get (r * rowWidth s + i) = reconByte (rowPredictor s r) { s with rbuf := m } r i
  kept : ∀ a, k * rowWidth s ≤ a → m.get a = s.rbuf.get a

theorem RowsWritten.zero (s : State) : RowsWritten s 0 s.rbuf := ⟨nofun, fun _ _ => rfl⟩

/-- A row more leaves the rows before it as they are. -/
theorem RowsWritten.succ (hc : 1 ≤ channels s) (h : RowsWritten s k m)
    (hrow : RowWritten (rowPredictor s k) { s with rbuf := m } k m') : RowsWritten s (k + 1) m' where
  bytes r i hr hi := by
    rcases Nat.lt_succ_iff_lt_or_eq.1 hr with hlt | rfl
    · have hbelow (a : Nat) (ha : a ≤ r * rowWidth s + i) : m'.get a = m.get a := by
        have hrows := Nat.mul_le_mul_right (rowWidth s) (Nat.succ_le_of_lt hlt)
        rw [Nat.succ_mul] at hrows
        exact hrow.kept a (.inl (by change a < k * rowWidth s; omega))
      rw [hbelow _ (Nat.le_refl _), h.bytes r i hlt hi]
      exact (reconByte_setRbuf (s := { s with rbuf := m }) hc hi fun a ha => hbelow a (Nat.le_of_lt ha)).symm
    · exact hrow.bytes i hi
  kept a ha := by
    rw [Nat.succ_mul] at ha
    rw [hrow.kept a (.inr ha)]
    exact h.kept a (by omega)

/-- The first rows of a command, their tags legal. -/
theorem runStream_rows (hc : 1 ≤ channels s) (hk : k ≤ nRows s) (htags : ∀ r, r < k → (rowTag s r).toNat ≤ 4) :
    ∃ m, runStream k (afterRows s 0 s.rbuf) = .next (afterRows s k m) ∧ RowsWritten s k m := by
  induction k with
  | zero => exact ⟨s.rbuf, rfl, .zero s⟩
  | succ k ih =>
    obtain ⟨m, hrun, hwritten⟩ := ih (by omega) fun r hr => htags r (by omega)
    obtain ⟨m', hrow, hnext⟩ := runStream_row (m := m) hc (htags k (Nat.lt_succ_self k))
    have hat : afterRows s k m = atRow s k m := if_pos hk
    exact ⟨m', by rw [runStream_add hrun 1, hat, hrow], hwritten.succ hc hnext⟩

/-- An illegal tag raises where it is read, and spoils what R421 says. -/
theorem raiseDefilter_afterRowsFault (s : State) (k : Nat) (m : Memory 8) :
    AfterRowsFault s (raiseDefilter .invalidFilterType (atRow s k m)) where
  frame := rfl
  length := freeBetween_le (Nat.zero_le _) _

/-- The run ends at the first illegal tag. -/
theorem runStream_illegalRow (hc : 1 ≤ channels s) (hk : k < nRows s) (htags : ∀ r, r < k → (rowTag s r).toNat ≤ 4)
    (htag : 4 < (rowTag s k).toNat) :
    ∃ t, runStream (nRows s) (afterRows s 0 s.rbuf) = .next t ∧ AfterRowsFault s t := by
  obtain ⟨m, hrun, -⟩ := runStream_rows hc (Nat.le_of_lt hk) htags
  obtain ⟨n, hn⟩ := Nat.exists_eq_add_of_lt hk
  have hat : afterRows s k m = atRow s k m := if_pos hk
  have hdecode : decodeFilterTag (rowTag s k) = .ftIllegal (rowTag s k) :=
    decodeFilterTag_ftIllegal (decide_eq_true htag)
  refine ⟨_, ?_, raiseDefilter_afterRowsFault s k m⟩
  rw [hn, Nat.add_assoc, runStream_add hrun, hat,
    runStream_succ n (fetch_atRow s k m) (by rw [hdecode]; rfl), runStream_over n rfl]

end

/-- Settles O47: the checks in their order, by the failure each of them raises. -/
theorem defilterChecks : Obligations.DefilterChecks := by
  intro s hs
  refine ⟨fun hbad => ?_, fun hb hc hin hout => ?_⟩
  · rw [← channels_eq] at hbad
    exact exec_defilter_of_check hs (defilterCheck_badCommand hbad)
  · rw [← channels_eq] at hc
    exact exec_defilter_of_check hs ((defilterCheck_of_present hb hc hin).trans (if_pos hout))

/-- Settles O51: the bytes of the row, then the two cases of its end. -/
theorem filterRows : Obligations.FilterRows := by
  intro i pred hi s hc
  obtain ⟨m, hrow, hbytes, hkept⟩ := filterRow_eq pred hc
  have hexec : exec i s = .next (nextRow { s with rbuf := m }) := (congrFun (exec_filterInstrs _ hi) s).trans hrow
  have hnumber (j : Nat) (hj : j < rowWidth s) := congrArg BitVec.toNat (hbytes j hj)
  simp only [toNat_reconByte] at hnumber
  rcases Nat.lt_or_ge (s.work.row + 1) (nRows s) with hmore | hlast
  · have hnext : nextRow { s with rbuf := m } =
        { s with rbuf := m, work := { s.work with row := s.work.row + 1 } } := if_pos hmore
    rw [hnext] at hexec
    exact ⟨_, hexec, fun _ => rfl, fun h => absurd hmore (Nat.not_lt.2 h), hnumber, hkept⟩
  · have hnext : nextRow { s with rbuf := m } = completeDefilter { s with rbuf := m } := if_neg (Nat.not_lt.2 hlast)
    rw [hnext] at hexec
    exact ⟨_, hexec, fun h => absurd h (Nat.not_lt.2 hlast), fun _ => rfl, hnumber, hkept⟩

/-- Settles O48: the run of all rows. -/
theorem defilterReconstructs : Obligations.DefilterReconstructs := by
  intro s hs rb n hb hc hin hout htags
  rw [← channels_eq] at hc
  obtain ⟨m, hrun, hwritten⟩ := runStream_rows (Nat.pos_of_ne_zero hc) (Nat.le_refl (nRows s)) htags
  have hend : afterRows s (nRows s) m = completeDefilter { s with rbuf := m } := if_neg (Nat.lt_irrefl _)
  refine ⟨_, (exec_defilter_of_operands hs hb hc hin hout).trans (hrun.trans (congrArg _ hend)), rfl,
    fun r i hr hi => ?_, hwritten.kept⟩
  exact (congrArg BitVec.toNat (hwritten.bytes r i hr hi)).trans (toNat_reconByte ..)

/-- Settles O49: the rows before the first illegal tag are legal, and the run ends at that one. -/
theorem illegalFilterTag : Obligations.IllegalFilterTag := by
  refine ⟨?_, fun tag s => ⟨_, rfl, rfl, freeBetween_le (Nat.zero_le _) _⟩⟩
  intro s hs rb n hb hc hin hout hillegal
  rw [← channels_eq] at hc
  obtain ⟨hk, htag⟩ := Nat.find_spec hillegal
  have hlegal (r : Nat) (hr : r < Nat.find hillegal) : (rowTag s r).toNat ≤ 4 :=
    Nat.not_lt.1 fun h => Nat.find_min hillegal hr ⟨hr.trans hk, h⟩
  rw [exec_defilter_of_operands hs hb hc hin hout]
  exact runStream_illegalRow (Nat.pos_of_ne_zero hc) hk hlegal htag

/-! ### The forward filters (R372) -/

/-- Reconstruction undoes the subtraction of the predictor, whatever the predictor. -/
theorem toNat_sub_add_mod (x : Byte) (p : Nat) : ((x - BitVec.ofNat 8 p).toNat + p) % 256 = x.toNat := by
  have hx := x.isLt
  rw [BitVec.toNat_sub, BitVec.toNat_ofNat]
  omega

/-- Settles O50: row by row and byte by byte, the neighbours of a byte being raw already. -/
theorem forwardFilterRoundTrip : Obligations.ForwardFilterRoundTrip := by
  intro s raw tag hs rb n bpp left up upLeft hb hc hin hout hrows
  have htag (r : Nat) (hr : r < n) : (s.obuf.get (r * rb)).toNat = tag r := by
    obtain ⟨hle, hcell, -⟩ := hrows r hr
    rw [hcell, BitVec.toNat_ofNat]
    omega
  obtain ⟨t, hexec, hframe, hbytes, -⟩ :=
    defilterReconstructs s hs hb hc hin hout fun r hr => (htag r hr).trans_le (hrows r hr).1
  have harg0 : t.arg0 = s.arg0 := by rw [hframe]
  have harg2 : t.arg2 = s.arg2 := by rw [hframe]
  have hbpp : bytesPerPixel t = bpp := by rw [bytesPerPixel, channels_eq, depth_eq, harg2]
  have hpos : 1 ≤ bpp := Nat.mul_pos (Nat.pos_of_ne_zero hc) (Nat.le_max_left 1 _)
  have hwidth : rowWidth t = rb - 1 := by rw [rowWidth, harg0]
  refine ⟨t, hexec, by rw [hframe], by rw [hframe]; exact BitVec.toNat_ofNat .., fun r => ?_⟩
  induction r using Nat.strong_induction_on with | _ r ihRow
  intro i
  induction i using Nat.strong_induction_on with | _ i ihByte
  intro hr hi
  have hleft : leftOf t r i = left r i := by
    rw [leftOf, hbpp]
    refine ite_congr rfl (fun hle => ?_) fun _ => rfl
    rw [recon, hwidth, ihByte (i - bpp) (by omega) hr (by omega)]
  have hup : upOf t r i = up r i := by
    refine ite_congr rfl (fun hle => ?_) fun _ => rfl
    rw [recon, hwidth, ihRow (r - 1) (by omega) i (by omega) hi]
  have hupLeft : upLeftOf t r i = upLeft r i := by
    rw [upLeftOf, hbpp]
    refine ite_congr rfl (fun hle => ?_) fun _ => rfl
    rw [recon, hwidth, ihRow (r - 1) (by omega) (i - bpp) (by omega) (by omega)]
  have hbyte := hbytes r i hr hi
  obtain ⟨-, -, hfiltered⟩ := hrows r hr
  rw [htag r hr, hleft, hup, hupLeft, hfiltered i hi, toNat_sub_add_mod] at hbyte
  exact BitVec.eq_of_toNat_eq hbyte

end Sys2Proof.Machine

/-! ## Commands: what they write, and how they end (R380, R381, R398)

A command's row of R398 is the state with everything the command writes put to a fixed value. A command keeps this
state, and every stream-level instruction of `INFLATE` or `DEFILTER` keeps the one of its command, whether it completes
or raises. None of them leaves a `STATUS` and `ERR` that do not agree. -/

namespace Sys2Proof.Machine

/-- The state with what a command writes put to fixed values (R398, R421). -/
def unwritten : Instr → State → State
  | .reset, s => resetRegisters s
  | .clr, s => clearFault s
  | .brInit, s => complete { s with brLen := 0, brOrder := 0, brPos := 0 }
  | .brRead, s | .brReadRev, s | .htDecode, s => complete { s with res0 := 0, brPos := 0, freeCtr := 0 }
  | .brRemaining, s | .crcCompute, s | .crcCheck, s => complete { s with res0 := 0 }
  | .htBuild, s => complete { s with htValid := 0, slotCL := none, slotLL := none, slotD := none }
  | .inflate, s => complete { unspoiled s with brLen := 0, brOrder := 0, htValid := 0, warn := 0 }
  | .obSetlen, s => complete { s with olen := 0 }
  | .defilter, s => complete { s with rlen := 0, rbuf := Memory.unspecified 0, work := Work.idle, freeCtr := 0 }
  | _, s => complete s

/-- `STATUS` and `ERR` of a block that takes commands: one is running, has completed, or has raised a failure. -/
def Accepted (s : State) : Prop :=
  s.status = .busy ∨ (s.status = .done ∧ s.err = 0) ∨ (s.status = .fault ∧ ∃ k : Failure, s.err = k.code)

section
variable {i : Instr} {s t u : State}

theorem accepted_complete (s : State) : Accepted (complete s) := .inr (.inl ⟨rfl, rfl⟩)

theorem accepted_raise (k : Failure) (s : State) : Accepted (raise k s) := .inr (.inr ⟨rfl, k, rfl⟩)

/-- A part of command `i` led from `s` to `t`: it wrote what the command may write. -/
structure PartOf (i : Instr) (s t : State) : Prop where
  frame : unwritten i t = unwritten i s
  accepted : Accepted s → Accepted t

theorem PartOf.refl (i : Instr) (s : State) : PartOf i s s := ⟨rfl, id⟩

theorem PartOf.trans (h : PartOf i s t) (h' : PartOf i t u) : PartOf i s u :=
  ⟨h'.frame.trans h.frame, h'.accepted ∘ h.accepted⟩

/-- An operation of `INFLATE`, whether it raises or not. -/
abbrev InflatePart {α : Type} (s : State) (r : Res α) : Prop := PartOf .inflate s r.state

theorem InflatePart.andThen {α β : Type} {r : Res α} {f : α → State → Res β} (h : InflatePart s r)
    (hf : ∀ a t, InflatePart t (f a t)) : InflatePart s (r.andThen f) := by
  cases r with
  | ok a t => exact PartOf.trans h (hf a t)
  | fail k t => exact h

/-! ### The operations of `INFLATE` -/

theorem advance_part (n : Nat) (s : State) : PartOf .inflate s (advance n s) := ⟨rfl, id⟩

theorem readCode_part (n : Nat) (s : State) : InflatePart s (readCode n s) := by
  rcases readCode_cases n s with ⟨-, h⟩ | ⟨-, h⟩ <;> rw [h]
  · exact advance_part n s
  · exact .refl _ s

theorem readReversed_part (n : Nat) (s : State) : InflatePart s (readReversed n s) := by
  rcases readReversed_cases n s with ⟨-, h⟩ | ⟨-, h⟩ <;> rw [h]
  · exact advance_part n s
  · exact .refl _ s

theorem append_part (b : Byte) (s : State) : InflatePart s (append b s) := by
  rcases append_cases b s with ⟨-, h⟩ | ⟨-, h⟩ <;> rw [h]
  · exact .refl _ s
  · exact ⟨rfl, id⟩

theorem copy_part (len d : Nat) (s : State) : InflatePart s (copy len d s) := by
  rw [InflatePart, copy_state]
  exact ⟨rfl, id⟩

theorem copyStored_part (n : Nat) (s : State) : InflatePart s (copyStored n s) := by
  rw [InflatePart, copyStored_state]
  exact ⟨rfl, id⟩

theorem checkComplement_part (len nlen : Nat) (s : State) : InflatePart s (checkComplement len nlen s) := by
  rcases checkComplement_cases len nlen s with ⟨-, h⟩ | ⟨-, -, h⟩ | ⟨-, -, h⟩ <;> rw [h]
  · exact .refl _ s
  · exact .refl _ s
  · exact ⟨rfl, id⟩

theorem setSlot_part (k : Nat) (t : Option Table) (s : State) : PartOf .inflate s (setSlot k t s) := by
  rw [setSlot_state]
  exact ⟨rfl, id⟩

theorem build_part (k : Nat) (lens : List Nat) (s : State) : InflatePart s (build k lens s) := by
  rcases build_cases k lens s with ⟨t, -, h⟩ | ⟨-, h⟩ <;> rw [h] <;> exact setSlot_part ..

theorem zlibHeader_part (s : State) : InflatePart s (zlibHeader s) := by
  rcases zlibHeader_cases s with ⟨_, h⟩ | ⟨_, h⟩ | ⟨_, -, h⟩ <;> rw [h] <;> exact ⟨rfl, id⟩

theorem dynamicHeader_part (s : State) : InflatePart s (dynamicHeader s) := by
  rcases dynamicHeader_cases s with ⟨_, _, _, _, _, -, -, -, -, -, h⟩ | ⟨_, h⟩ | ⟨_, h⟩ <;> rw [h] <;>
    exact ⟨rfl, id⟩

/-- The end of a block, which for the final one is the end of the command. -/
theorem endBlock_part (s : State) : PartOf .inflate s (endBlock s) := by
  rcases endBlock_cases s with ⟨-, h⟩ | ⟨-, h⟩ <;> rw [h]
  · exact ⟨rfl, fun _ => accepted_complete _⟩
  · exact ⟨rfl, id⟩

theorem storedBlock_part (s : State) : InflatePart s (storedBlock s) :=
  (readCode_part _ s).andThen fun _ s => (readReversed_part 16 s).andThen fun _ s =>
    (readReversed_part 16 s).andThen fun _ s => (checkComplement_part _ _ s).andThen fun _ s =>
    (copyStored_part _ s).andThen fun _ s => endBlock_part s

theorem afterLengths_part (s : State) : InflatePart s (afterLengths s) := by
  rcases afterLengths_cases s with ⟨-, h⟩ | ⟨-, _, _, -, -, h⟩ | ⟨-, _, _, h⟩ <;> rw [h] <;> exact ⟨rfl, id⟩

theorem fillLens_part (k : Nat) (v : Nibble) (r : Nat) (s : State) : PartOf .inflate s (fillLens k v r s) := by
  rw [fillLens_state]
  exact ⟨rfl, id⟩

theorem emit_part (v : Nibble) (r : Nat) (s : State) : InflatePart s (emit v r s) := by
  unfold emit
  split
  · exact .refl _ s
  · refine PartOf.trans ?_ (afterLengths_part _)
    exact (fillLens_part ..).trans ⟨rfl, id⟩

theorem zeroRepeat_part (extra base : Nat) (s : State) : InflatePart s (zeroRepeat extra base s) :=
  (readReversed_part extra s).andThen fun _ s => emit_part 0 _ s

/-! ### The instructions of an `INFLATE` stream -/

/-- An instruction of a stream, by its outcome: a part of command `i`. -/
def Performs (i : Instr) (s : State) (o : Out) : Prop := ∃ t, o = .next t ∧ PartOf i s t

theorem raiseInflate_part (k : Failure) (s : State) : PartOf .inflate s (raiseInflate k s) :=
  ⟨rfl, fun _ => accepted_raise ..⟩

theorem settleInflate_performs {r : Res Unit} (h : InflatePart s r) : Performs .inflate s (settleInflate r) := by
  cases r with
  | ok _ t => exact ⟨t, rfl, h⟩
  | fail k t => exact ⟨_, rfl, PartOf.trans h (raiseInflate_part k t)⟩

/-- A block whose body is a part of the command, its `BFINAL` held first (R226). -/
theorem block_performs {f : Bool} {r : Res Unit} (h : InflatePart (setFinal f s) r) :
    Performs .inflate s (settleInflate r) :=
  settleInflate_performs (PartOf.trans (t := setFinal f s) ⟨rfl, id⟩ h)

theorem execBlkFixed_performs (f : Bool) (s : State) : Performs .inflate s (execBlkFixed f s) :=
  block_performs ((build_part 1 fixedLens _).andThen fun _ _ => ⟨rfl, id⟩)

theorem lengthSymbol_performs (extra base : Nat) (s : State) : Performs .inflate s (lengthSymbol extra base s) :=
  settleInflate_performs ((readReversed_part extra s).andThen fun _ _ => ⟨rfl, id⟩)

theorem distanceSymbol_performs (extra base : Nat) (s : State) :
    Performs .inflate s (distanceSymbol extra base s) :=
  settleInflate_performs ((readReversed_part extra s).andThen fun _ u =>
    (copy_part _ _ u).andThen fun _ _ => ⟨rfl, id⟩)

theorem execClRep_performs (s : State) : Performs .inflate s (execClRep s) := by
  refine settleInflate_performs ?_
  split
  · exact .refl _ s
  · exact (readReversed_part 2 s).andThen fun _ s => emit_part _ _ s

theorem streamExec_performs (hc : i.format ≠ .cmd) (hv : i.format ≠ .ftag) (s : State) :
    Performs .inflate s (streamExec i s) := by
  cases i with
  | blkStored => exact block_performs (storedBlock_part _)
  | blkFixed f => exact execBlkFixed_performs f s
  | blkDynamic => exact block_performs (dynamicHeader_part _)
  | lit v => exact settleInflate_performs (append_part v s)
  | eob => exact settleInflate_performs (r := .ok () (endBlock s)) (endBlock_part s)
  | blkReserved | llInvalid286 | llInvalid287 | llUnreachable | dInvalid =>
    exact settleInflate_performs (r := .fail _ s) (.refl _ s)
  | clLen v => exact settleInflate_performs (emit_part v 1 s)
  | clRep => exact execClRep_performs s
  | clZrep3 | clZrep11 | clUnreachable => exact settleInflate_performs (zeroRepeat_part _ _ s)
  | len257 | len258 | len259 | len260 | len261 | len262 | len263 | len264 | len265 | len266 | len267 | len268
  | len269 | len270 | len271 | len272 | len273 | len274 | len275 | len276 | len277 | len278 | len279 | len280
  | len281 | len282 | len283 | len284 | len285 =>
    dsimp only [streamExec]
    exact lengthSymbol_performs _ _ s
  | dist0 | dist1 | dist2 | dist3 | dist4 | dist5 | dist6 | dist7 | dist8 | dist9 | dist10 | dist11 | dist12
  | dist13 | dist14 | dist15 | dist16 | dist17 | dist18 | dist19 | dist20 | dist21 | dist22 | dist23 | dist24
  | dist25 | dist26 | dist27 | dist28 | dist29 =>
    dsimp only [streamExec]
    exact distanceSymbol_performs _ _ s
  | ftNone | ftSub | ftUp | ftAverage | ftPaeth | ftIllegal => exact absurd rfl hv
  | _ => exact absurd rfl hc

/-- A turn of `INFLATE` is a part of the command. -/
theorem streamTurn_inflate {r : Res Instr} (hv : s.work.level ≠ .ftag) (hf : fetch s = some r) :
    Performs .inflate s (streamTurn r) := by
  cases r with
  | ok i u =>
    obtain ⟨hformat, hrunning, m, rfl⟩ := fetch_ok hf
    obtain ⟨t, ht, hpart⟩ := streamExec_performs (hformat ▸ hrunning) (hformat ▸ hv) (advance m s)
    exact ⟨t, ht, (advance_part m s).trans hpart⟩
  | fail k u =>
    obtain ⟨-, m, rfl⟩ := fetch_fail hf
    exact ⟨_, rfl, (advance_part m s).trans (raiseInflate_part k _)⟩

/-! ### The rows of `DEFILTER` -/

theorem filterRow_performs (pred : Predictor) (s : State) : Performs .defilter s (filterRow pred s) := by
  refine ⟨_, rfl, ?_⟩
  rw [reconRow_state, nextRow]
  split
  · exact ⟨rfl, id⟩
  · exact ⟨rfl, fun _ => accepted_complete _⟩

/-- A turn of `DEFILTER` is a part of the command. -/
theorem streamTurn_defilter {r : Res Instr} (hv : s.work.level = .ftag) (hf : fetch s = some r) :
    Performs .defilter s (streamTurn r) := by
  simp only [fetch, hv, Option.some.injEq] at hf
  subst hf
  simp only [fetchTag, streamTurn, decodeFilterTag]
  split
  case h_6 => exact ⟨_, rfl, rfl, fun _ => accepted_raise ..⟩
  all_goals exact filterRow_performs _ s

/-! ### Whole streams -/

/-- A run is a part of its command if each turn is, at the levels `L` that the turns keep to until the command is
over. -/
theorem runStream_part {L : Format → Prop} {n : Nat}
    (hturn : ∀ (s : State) (r : Res Instr), L s.work.level → fetch s = some r →
      ∃ t, streamTurn r = .next t ∧ PartOf i s t ∧ (t.atHost ∨ L t.work.level))
    (hv : L s.work.level) (ht : runStream n s = .next t) : PartOf i s t := by
  induction n generalizing s with
  | zero =>
    cases ht
    exact .refl i _
  | succ n ih =>
    cases hf : fetch s with
    | none =>
      simp only [runStream, hf] at ht
      cases ht
      exact .refl i _
    | some r =>
      obtain ⟨u, hu, hpart, hnext⟩ := hturn s r hv hf
      simp only [runStream, hf, hu] at ht
      rcases hnext with hover | hvu
      · rw [runStream_over n hover] at ht
        cases ht
        exact hpart
      · exact hpart.trans (ih hvu ht)

theorem runStream_inflate {n : Nat} (hv : s.work.level ≠ .ftag) (ht : runStream n s = .next t) :
    PartOf .inflate s t := by
  refine runStream_part (L := (· ≠ .ftag)) (fun _ _ hv hf => ?_) hv ht
  obtain ⟨t, ht, hpart⟩ := streamTurn_inflate hv hf
  obtain ⟨_, hu, hon⟩ := streamTurn_resumes hf hv
  cases ht.symm.trans hu
  exact ⟨t, ht, hpart, hon.imp_right fun hon => hon.level hv⟩

theorem runStream_defilter {n : Nat} (hv : s.work.level = .ftag) (ht : runStream n s = .next t) :
    PartOf .defilter s t := by
  refine runStream_part (L := (· = .ftag)) (fun _ _ hv hf => ?_) hv ht
  obtain ⟨t, ht, hpart⟩ := streamTurn_defilter hv hf
  obtain ⟨_, hu, hnext⟩ := streamTurn_nextRow hf hv
  cases ht.symm.trans hu
  exact ⟨t, ht, hpart, hnext.imp_right And.left⟩

/-! ### Commands -/

/-- A command that is run: it gives a next state, keeps its row of R398, and `STATUS` and `ERR` tell how it stands. -/
def Concludes (i : Instr) (s : State) (o : Out) : Prop :=
  ∃ t, o = .next t ∧ unwritten i t = unwritten i s ∧ Accepted t

theorem concludes_complete (h : unwritten i (complete t) = unwritten i s) : Concludes i s (.next (complete t)) :=
  ⟨_, rfl, h, accepted_complete t⟩

theorem concludes_raise {k : Failure} (h : unwritten i (raise k t) = unwritten i s) :
    Concludes i s (.next (raise k t)) :=
  ⟨_, rfl, h, accepted_raise k t⟩

/-- `STATUS` and `ERR` are in no command's row (R398). -/
theorem unwritten_raise (i : Instr) (k : Failure) (s : State) : unwritten i (raise k s) = unwritten i s := by
  cases i <;> rfl

theorem concludes_command {body : State → State} (hs : s.status ≠ .fault) (hb : Concludes i s (.next (body s))) :
    Concludes i s (command s body) := by
  rwa [command_of_not_fault hs]

theorem concludes_operandCheck {bad : Prop} [Decidable bad] (h : Concludes i s (.next t)) :
    Concludes i s (.next (if bad then raise .badCommand s else t)) := by
  split
  · exact concludes_raise (unwritten_raise ..)
  · exact h

theorem settleRead_concludes {v n : Nat} {r : Res Nat}
    (hr : (n ≤ remainingBits s ∧ r = .ok v (advance n s)) ∨ (remainingBits s < n ∧ r = .fail .insufficientBits s)) :
    Concludes .brRead s (.next (settleRead r)) := by
  rcases hr with ⟨-, rfl⟩ | ⟨-, rfl⟩
  · exact concludes_complete rfl
  · exact concludes_raise rfl

theorem execBrRead_concludes (hs : s.status ≠ .fault) : Concludes .brRead s (execBrRead s) :=
  concludes_command hs (concludes_operandCheck (settleRead_concludes (readCode_cases _ s)))

theorem execBrReadRev_concludes (hs : s.status ≠ .fault) : Concludes .brReadRev s (execBrReadRev s) :=
  concludes_command hs (concludes_operandCheck (settleRead_concludes (readReversed_cases _ s)))

theorem execHtBuild_concludes (hs : s.status ≠ .fault) : Concludes .htBuild s (execHtBuild s) := by
  refine concludes_command hs (concludes_operandCheck (concludes_operandCheck ?_))
  rcases build_cases s.arg0.toNat (lensFrom 0 s.arg1.toNat s) s with ⟨tab, -, h⟩ | ⟨-, h⟩ <;> rw [h, setSlot_state]
  · exact concludes_complete rfl
  · exact concludes_raise rfl

theorem execHtDecode_concludes (hs : s.status ≠ .fault) : Concludes .htDecode s (execHtDecode s) := by
  refine concludes_command hs (concludes_operandCheck ?_)
  split
  · rcases decodeOne_cases s.arg0.toNat s with ⟨_, _, _, -, -, -, -, h⟩ | ⟨_, h⟩ <;> rw [h]
    · exact concludes_complete rfl
    · exact concludes_raise rfl
  · exact concludes_raise rfl

theorem execCrcCheck_concludes (hs : s.status ≠ .fault) : Concludes .crcCheck s (execCrcCheck s) := by
  refine concludes_command hs (concludes_operandCheck ?_)
  dsimp only
  split
  · exact concludes_complete rfl
  · exact concludes_raise rfl

/-- A command that began with `STATUS` at `BUSY`, by its parts. -/
theorem PartOf.concludes (h : PartOf i u t) (hu : unwritten i u = unwritten i s) (hbusy : u.status = .busy) :
    Concludes i s (.next t) :=
  ⟨t, rfl, h.frame.trans hu, h.accepted (.inl hbusy)⟩

theorem execInflate_concludes (hs : s.status ≠ .fault) : Concludes .inflate s (execInflate s) := by
  rw [execInflate, if_neg hs]
  split
  · exact concludes_raise rfl
  have hheader := zlibHeader_part (enterInflate s)
  split
  all_goals
    rename_i h
    rw [InflatePart, h] at hheader
  · obtain ⟨t, ht⟩ := runStream_next (8 * s.arg0.toNat) (enterBlocks _)
    rw [ht]
    have hblocks := runStream_inflate (by simp) ht
    exact (PartOf.trans hheader (PartOf.trans (t := enterBlocks _) ⟨rfl, id⟩ hblocks)).concludes rfl rfl
  · exact (PartOf.trans hheader (raiseInflate_part ..)).concludes rfl rfl

theorem execDefilter_concludes (hs : s.status ≠ .fault) : Concludes .defilter s (execDefilter s) := by
  rw [execDefilter, if_neg hs]
  split
  · exact concludes_raise rfl
  split
  · exact concludes_complete rfl
  · obtain ⟨t, ht⟩ := runStream_next (nRows s) (enterRows s)
    rw [ht]
    exact (runStream_defilter rfl ht).concludes rfl rfl

theorem exec_concludes (hi : i.format = .cmd) (hs : s.status ≠ .fault) (hr : i ≠ .reset) (hc : i ≠ .clr) :
    Concludes i s (exec i s) := by
  cases i with
  | nop => exact concludes_command hs (concludes_complete rfl)
  | reset => exact absurd rfl hr
  | clr => exact absurd rfl hc
  | brInit | obSetlen | crcCompute =>
    dsimp only [exec, execBrInit, execObSetlen, execCrcCompute]
    exact concludes_command hs (concludes_operandCheck (concludes_complete rfl))
  | brRead => exact execBrRead_concludes hs
  | brReadRev => exact execBrReadRev_concludes hs
  | brRemaining =>
    dsimp only [exec, execBrRemaining]
    exact concludes_command hs (concludes_complete rfl)
  | htBuild => exact execHtBuild_concludes hs
  | htDecode => exact execHtDecode_concludes hs
  | inflate => exact execInflate_concludes hs
  | crcCheck => exact execCrcCheck_concludes hs
  | defilter => exact execDefilter_concludes hs
  | cmdIllegal => exact concludes_command hs (concludes_raise rfl)
  | _ => exact absurd hi nofun

/-- Every command keeps its row of R398, in `FAULT` too. -/
theorem exec_unwritten (hi : i.format = .cmd) (ht : exec i s = .next t) : unwritten i t = unwritten i s := by
  by_cases hr : i = .reset
  · subst hr
    cases ht
    rfl
  by_cases hc : i = .clr
  · subst hc
    cases ht
    rfl
  by_cases hs : s.status = .fault
  · rw [exec_ignored hs (by simp [Instr.ignoredInFault, hi, hr, hc])] at ht
    cases ht
    rfl
  · obtain ⟨_, hu, hframe, -⟩ := exec_concludes hi hs hr hc
    cases ht.symm.trans hu
    exact hframe

end

/-- Settles O6: a command ends at the host's turn with the invariant, so of what `STATUS` can tell by then `BUSY` is ruled
out. -/
theorem commandOutcome : Obligations.CommandOutcome := by
  refine fun i s hi h ha => ⟨fun hs hr hc => exec_ignored hs (by simp [Instr.ignoredInFault, hi, hr, hc]),
    fun hrun => ?_⟩
  obtain ⟨t, ht, hover, hinv⟩ := exec_rests hi h ha
  refine ⟨t, ht, hover, ?_⟩
  by_cases hidle : i = .reset ∨ i = .clr
  · refine .inr (.inl ⟨hidle, ?_⟩)
    obtain rfl | rfl := hidle <;> cases ht <;> exact ⟨rfl, rfl⟩
  · have hs := hrun.resolve_right hidle
    obtain ⟨hr, hc⟩ := not_or.1 hidle
    obtain ⟨_, hu, -, haccepted⟩ := exec_concludes hi hs hr hc
    cases ht.symm.trans hu
    obtain hbusy | hdone | hfault := haccepted
    · exact absurd hbusy (hinv.not_busy hover)
    · exact .inr (.inr ⟨hr, hc, hdone⟩)
    · exact .inl hfault

/-- Settles O8: the fields that a command's row of R398 holds as they are. -/
theorem frameTable : Obligations.FrameTable := by
  intro i s t hi ht
  have h := exec_unwritten hi ht
  cases i with
  | nop | reset | clr | brInit | brRead | brReadRev | brRemaining | htBuild | htDecode | inflate | obSetlen
  | crcCompute | crcCheck | defilter | cmdIllegal =>
    simp only [unwritten, resetRegisters, clearFault, complete, unspoiled, State.mk.injEq] at h
    simp [h]
  | _ => exact absurd hi nofun

end Sys2Proof.Machine

/-! ## Commands: their outcomes one by one (R382 to R394) -/

namespace Sys2Proof.Machine

/-! ### Housekeeping and the bit reader (R382, R384 to R390, R394) -/

/-- Settles O3: the registers of R47 at their reset values, and the memories and slots as they were. -/
theorem resetCommand : Obligations.ResetCommand := fun s =>
  ⟨_, rfl, resetRegisters_registersAtReset s, rfl, rfl, rfl, rfl, rfl, rfl, rfl, rfl, rfl, rfl⟩

/-- Settles O4: `NOP` only completes, and `CLR` does not read `STATUS`. -/
theorem nopAndClear : Obligations.NopAndClear := fun _ =>
  ⟨fun hs => command_of_not_fault hs complete, fun hs => command_fault hs complete, rfl⟩

/-- Settles O5: an opcode that is not one of the fourteen is a well-formed illegal one. -/
theorem illegalCommand : Obligations.IllegalCommand := by
  intro op s hs hop
  have hwf : (Instr.cmdIllegal op).wf = true := by simpa [Instr.wf, definedOpcodes] using hop
  rw [decodeCommand_cmdIllegal hwf]
  exact ⟨rfl, command_of_not_fault hs (raise .badCommand)⟩

/-- Settles O10: the operand check and its two outcomes. -/
theorem brInitCommand : Obligations.BrInitCommand := by
  refine fun s hs => ⟨fun hn => ?_, fun hn => ?_⟩
  all_goals rw [exec, execBrInit, command_of_not_fault hs]
  · rw [if_pos hn]
    rfl
  · rw [if_neg (Nat.not_lt.2 hn)]
    rfl

/-- Settles O46: the operand check and its two outcomes. -/
theorem obSetlenCommand : Obligations.ObSetlenCommand := by
  refine fun s hs => ⟨fun hn => ?_, fun hn => ?_⟩
  all_goals rw [exec, execObSetlen, command_of_not_fault hs]
  · rw [if_pos hn]
    rfl
  · rw [if_neg (Nat.not_lt.2 hn)]
    rfl

/-- Settles O14: the bits left are the difference of R144. -/
theorem brRemainingCommand : Obligations.BrRemainingCommand := by
  intro s hs
  rw [exec, execBrRemaining, command_of_not_fault hs]
  rfl

/-- Settles O12: the operand check, the bits that are there, and the value as the sum of R142. -/
theorem brReadCommand : Obligations.BrReadCommand := by
  refine fun s hs => ⟨fun hn => ?_, fun hn hr => ?_, fun hn hr => ?_⟩
  · rw [exec, execBrRead, command_of_not_fault hs, if_pos hn]
    rfl
  · rw [exec, execBrRead, command_of_not_fault hs, if_neg (Nat.not_lt.2 hn), readCode_of_lt hr]
    exact ⟨_, rfl, rfl⟩
  · rw [← packCode_eq_codeSum]
    exact ⟨exec_brRead_of_le hs hn hr, packCode_lt ..⟩

/-- Settles O13: the operand check, the bits that are there, and the value as the sum of R143. -/
theorem brReadRevCommand : Obligations.BrReadRevCommand := by
  refine fun s hs => ⟨fun hn => ?_, fun hn hr => ?_, fun hn hr => ?_⟩
  · rw [exec, execBrReadRev, command_of_not_fault hs, if_pos hn]
    rfl
  · rw [exec, execBrReadRev, command_of_not_fault hs, if_neg (Nat.not_lt.2 hn), readReversed_of_lt hr]
    exact ⟨_, rfl, rfl⟩
  · rw [← packInteger_eq_integerSum]
    exact ⟨exec_brReadRev_of_le hs hn hr, packInteger_lt ..⟩

/-! ### The Huffman unit (R391, R392) -/

section
variable {s t : State} {k : Nat} {f : Failure}

/-- The bit of a slot in `HT_VALID` (R43). -/
theorem getLsbD_slotBit (hk : k ≤ 2) (j : Nat) : (1#3 <<< k).getLsbD j = decide (j = k) := by
  simp only [BitVec.getLsbD_shiftLeft, BitVec.getLsbD_one]
  grind

theorem slotValid_setValid_eq (hk : k ≤ 2) (j : Nat) (s : State) :
    slotValid j (setValid k s) = (decide (j = k) || slotValid j s) := by
  rw [slotValid, setValid_htValid, BitVec.getLsbD_or, getLsbD_slotBit hk, Bool.or_comm, slotValid]

theorem slotValid_clearValid_eq (hk : k ≤ 2) (j : Nat) (s : State) :
    slotValid j (clearValid k s) = (!decide (j = k) && slotValid j s) := by
  rw [slotValid, clearValid_htValid, BitVec.getLsbD_and, BitVec.getLsbD_not, getLsbD_slotBit hk, slotValid]
  rcases Nat.lt_or_ge j 3 with hj | hj
  · rw [decide_eq_true hj, Bool.true_and, Bool.and_comm]
  · rw [BitVec.getLsbD_of_ge _ _ hj, Bool.false_and, Bool.and_false]

/-- What `setSlot` and a write to `HT_VALID` can change: the slots and `HT_VALID`. -/
theorem setSlot_htValid_state (k : Nat) (o : Option Table) (v : BitVec 3) (s : State) :
    { setSlot k o s with htValid := v } = { s with
      htValid := v
      slotCL := (setSlot k o s).slotCL, slotLL := (setSlot k o s).slotLL, slotD := (setSlot k o s).slotD } :=
  congrArg (fun u : State => { u with htValid := v }) (setSlot_state k o s)

theorem lensFrom_zero (n : Nat) (s : State) :
    lensFrom 0 n s = (List.range n).map fun a => (s.lens.get a).toNat := by
  simpa only [Nat.zero_add] using lensFrom_eq_map (fun _ => rfl) 0 n

theorem exec_htBuild_bad (hs : s.status ≠ .fault) (h : 2 < s.arg0.toNat ∨ slotSize s.arg0.toNat < s.arg1.toNat) :
    exec .htBuild s = .next (raise .badCommand s) := by
  rw [exec, execHtBuild, command_of_not_fault hs]
  dsimp only
  split
  · rfl
  · rw [if_pos (h.resolve_left ‹_›)]

theorem exec_htBuild_ok (hs : s.status ≠ .fault) (hk : s.arg0.toNat ≤ 2) (hn : s.arg1.toNat ≤ slotSize s.arg0.toNat)
    (h : build s.arg0.toNat (lensFrom 0 s.arg1.toNat s) s = .ok () t) :
    exec .htBuild s = .next (complete (setValid s.arg0.toNat t)) := by
  rw [exec, execHtBuild, command_of_not_fault hs]
  simp only [if_neg (Nat.not_lt.2 hk), if_neg (Nat.not_lt.2 hn), h]

theorem exec_htBuild_fail (hs : s.status ≠ .fault) (hk : s.arg0.toNat ≤ 2)
    (hn : s.arg1.toNat ≤ slotSize s.arg0.toNat)
    (h : build s.arg0.toNat (lensFrom 0 s.arg1.toNat s) s = .fail f t) :
    exec .htBuild s = .next (raise f (clearValid s.arg0.toNat t)) := by
  rw [exec, execHtBuild, command_of_not_fault hs]
  simp only [if_neg (Nat.not_lt.2 hk), if_neg (Nat.not_lt.2 hn), h]

theorem exec_htDecode_bad (hs : s.status ≠ .fault) (h : 2 < s.arg0.toNat ∨ slotValid s.arg0.toNat s = false) :
    exec .htDecode s = .next (raise .badCommand s) := by
  rw [exec, execHtDecode, command_of_not_fault hs]
  dsimp only
  split
  · rfl
  · rw [if_neg (Bool.eq_false_iff.1 (h.resolve_left ‹_›))]

theorem exec_htDecode_ok {sym : BitVec 9} (hs : s.status ≠ .fault) (hk : s.arg0.toNat ≤ 2)
    (hv : slotValid s.arg0.toNat s = true) (h : decodeOne s.arg0.toNat s = .ok sym t) :
    exec .htDecode s = .next (complete { t with res0 := sym.setWidth 32 }) := by
  rw [exec, execHtDecode, command_of_not_fault hs]
  simp only [if_neg (Nat.not_lt.2 hk), if_pos hv, h]

theorem exec_htDecode_fail (hs : s.status ≠ .fault) (hk : s.arg0.toNat ≤ 2)
    (hv : slotValid s.arg0.toNat s = true) (h : decodeOne s.arg0.toNat s = .fail f t) :
    exec .htDecode s = .next (raise f (spoilDecode s.brPos.toNat t)) := by
  rw [exec, execHtDecode, command_of_not_fault hs]
  simp only [if_neg (Nat.not_lt.2 hk), if_pos hv, h]

/-- A free value stays above its lower bound (R46). -/
theorem le_freeBetween {lo hi : Nat} (h : lo ≤ hi) (hhi : hi < 2 ^ 32) (tag : Nat) :
    lo ≤ (freeBetween lo hi tag).toNat := by
  have hmod : (Config.freeReg 32 tag).toNat % (hi - lo + 1) < hi - lo + 1 := Nat.mod_lt _ (Nat.succ_pos _)
  rw [freeBetween, BitVec.toNat_ofNat, Nat.mod_eq_of_lt (by omega)]
  exact Nat.le_add_right ..

end

/-- Settles O19: the two checks, then the slot and its bit of `HT_VALID` by what `build` answers. -/
theorem htBuildCommand : Obligations.HtBuildCommand := by
  refine fun s hs => ⟨exec_htBuild_bad hs, fun hk hn hcoded => ?_, fun hk hn hzero => ?_⟩
  · obtain ⟨tab, htab⟩ := exists_buildTable hcoded
    have hbuild : build s.arg0.toNat (lensFrom 0 s.arg1.toNat s) s = .ok () (setSlot s.arg0.toNat (some tab) s) := by
      rw [lensFrom_zero, build, htab]
    refine ⟨_, tab, exec_htBuild_ok hs hk hn hbuild, htab, congrArg complete (setSlot_htValid_state ..),
      fun j hj => ?_, fun j => ?_⟩
    · split
      case isTrue hjk => exact hjk ▸ slotTable_setSlot_same ..
      case isFalse hjk => exact slotTable_setSlot_other (by omega) (by omega) hjk _
    · exact (slotValid_setValid_eq hk j _).trans (by rw [slotValid_setSlot])
  · have hbuild : build s.arg0.toNat (lensFrom 0 s.arg1.toNat s) s =
        .fail .emptyAlphabet (setSlot s.arg0.toNat none s) := by
      rw [lensFrom_zero, build, buildTable_eq_none.2 hzero]
    refine ⟨_, exec_htBuild_fail hs hk hn hbuild, congrArg (raise .emptyAlphabet) (setSlot_htValid_state ..),
      fun j hj hjk => ?_, fun j => ?_⟩
    · exact slotTable_setSlot_other (by omega) (by omega) hjk _
    · exact (slotValid_clearValid_eq hk j _).trans (by rw [slotValid_setSlot])

/-- Settles O21: the checks, then `decode_one` with the shortest key or with none. -/
theorem htDecodeCommand : Obligations.HtDecodeCommand := by
  refine fun s h hs => ⟨exec_htDecode_bad hs, fun tab hk hv hslot => ⟨fun m sym h1 hr hf hno => ?_, fun hno => ?_⟩⟩
  · exact exec_htDecode_ok hs hk hv (decodeOne_of_find h hslot h1 hr hf hno)
  · obtain ⟨j, hj⟩ := decodeOne_of_no_find h hslot hno
    have hc := h.sound.cursorOk
    exact ⟨_, exec_htDecode_fail hs hk hv hj, rfl, le_freeBetween hc.cursor hc.length _, freeBetween_le hc.cursor _⟩

/-! ### The header of `INFLATE` (R220 to R222, R393, R421) -/

section
variable {s u : State}

theorem zlibHeader_short (hc : CursorOk s) (h : remainingBits s < 16) :
    ∃ m, zlibHeader s = .fail .insufficientBits (advance m s) := by
  rw [zlibHeader]
  rcases Nat.lt_or_ge (remainingBits s) 8 with hlt | hle
  · exact ⟨0, by rw [readReversed_of_lt hlt, Res.andThen_fail, advance_zero]⟩
  · exact ⟨8, by rw [readReversed_of_le hle, Res.andThen_ok, readReversed_advance_fails hc hle h, Res.andThen_fail]⟩

/-- The header of a stream that names a preset dictionary (R222). -/
theorem zlibHeader_presetDict (hs : Streaming s) (hp : s.brPos = 0) (hlen : 16 ≤ remainingBits s)
    (hdict : (s.ibuf.get 1).getLsbD 5 = true) :
    ∃ z, zlibHeader s = .fail .unsupportedFeature { advance 16 s with zhdr := z } := by
  have hflg : integerSum s (s.brPos.toNat + 8) 8 = (s.ibuf.get 1).toNat := by
    rw [hp]
    exact integerSum_byte hs.order 1
  have hbit : (s.ibuf.get 1).toNat.testBit 5 = true := by rw [BitVec.testBit_toNat, hdict]
  rw [zlibHeader, readReversed_sum (by omega), Res.andThen_ok, readReversed_advance hs.cursor hlen, Res.andThen_ok,
    hflg, if_pos hbit]
  exact ⟨_, rfl⟩

/-- `INFLATE` on a header that raises. -/
theorem exec_inflate_of_header_fail {k : Failure} (hs : s.status ≠ .fault) (ha : s.arg0.toNat ≤ s.params.ibufCap)
    (h : zlibHeader (enterInflate s) = .fail k u) : exec .inflate s = .next (raiseInflate k u) := by
  simp only [exec, execInflate, if_neg hs, if_neg (Nat.not_lt.2 ha), h]

end

/-- Settles O25: the operand check, and the two ways the header raises. -/
theorem inflateHeaderFailures : Obligations.InflateHeaderFailures := by
  refine fun s hp hs => ⟨fun ha => ?_, fun h2 => ?_, fun h2 ha hdict => ?_⟩
  · rw [exec, execInflate, if_neg hs, if_pos ha]
    rfl
  · have ha : s.arg0.toNat ≤ s.params.ibufCap := by
      simp only [Params.wf, decide_eq_true_eq] at hp
      omega
    have hbits : remainingBits (enterInflate s) = 8 * s.arg0.toNat := rfl
    obtain ⟨m, hm⟩ := zlibHeader_short (enterInflate_cursorOk hp ha) (by omega)
    exact ⟨_, exec_inflate_of_header_fail hs ha hm, rfl, freeBetween_le (Nat.zero_le _) _,
      freeBetween_le (Nat.zero_le _) _⟩
  · have hbits : remainingBits (enterInflate s) = 8 * s.arg0.toNat := rfl
    have hstream : Streaming (enterInflate s) := ⟨enterInflate_cursorOk hp ha, rfl, (params_bounds hp).2⟩
    obtain ⟨z, hz⟩ := zlibHeader_presetDict hstream rfl (by omega) hdict
    exact ⟨_, exec_inflate_of_header_fail hs ha hz, rfl, freeBetween_le (Nat.zero_le _) _,
      freeBetween_le (Nat.zero_le _) _⟩

end Sys2Proof.Machine

/-! ## The failure kinds a block can raise (R411, R412), and what `INFLATE` defines (R421)

No step puts a failure kind of the host's container into `ERR`. An operation of `INFLATE` that does not raise leaves
what the header defined, and one that raises does so with a kind of the stream's own. -/

namespace Sys2Proof.Machine

/-- The failure kinds that `INFLATE` raises once its operand is accepted, `StoredLenMismatch` in strict mode only
(R232, R393, R412). -/
def InflateRaises (p : Params) : Failure → Prop
  | .unsupportedFeature | .reservedBlockType | .truncatedHuffmanCode | .emptyAlphabet | .backrefOutOfRange
  | .insufficientBits | .invalidSymbol | .invalidCodeLengths | .bufferOverflow => True
  | .storedLenMismatch => p.strictNlen = true
  | .badSignature | .truncatedChunk | .crcMismatch | .truncatedIhdr | .invalidFilterType | .badCommand => False

theorem InflateRaises.code_mem {p : Params} {k : Failure} (h : InflateRaises p k) :
    k.code ∈ [5, 6, 7, 8, 9, 11, 12, 13, 14, 15] := by
  cases k with
  | badSignature | truncatedChunk | crcMismatch | truncatedIhdr | invalidFilterType | badCommand => exact False.elim h
  | _ => decide

theorem InflateRaises.not_container {p : Params} {k : Failure} (h : InflateRaises p k) : k.code ∉ [1, 2, 4] := by
  cases k with
  | badSignature | truncatedChunk | truncatedIhdr => exact False.elim h
  | _ => decide

theorem InflateRaises.strict {p : Params} {k : Failure} (h : InflateRaises p k) (hk : k.code = 14) :
    p.strictNlen = true := by
  cases k with
  | storedLenMismatch => exact h
  | _ => exact absurd hk (by decide)

/-- The state with what `INFLATE` may write after it has entered put to fixed values (R421). -/
def inflateHeld (s : State) : State := complete { unspoiled s with warn := 0 }

section
variable {α β : Type} {s t u : State} {r : Res α}

/-- `INFLATE` went on from `s` to `t`, or completed there, without raising. -/
structure GoesOn (s t : State) : Prop where
  frame : inflateHeld t = inflateHeld s
  zhdr : t.zhdr = s.zhdr
  warn : s.warn = 1 → t.warn = 1
  standing : (t.status = s.status ∧ t.err = s.err) ∨ (t.status = .done ∧ t.err = 0)

theorem GoesOn.refl (s : State) : GoesOn s s := ⟨rfl, rfl, id, .inl ⟨rfl, rfl⟩⟩

theorem GoesOn.trans (h : GoesOn s t) (h' : GoesOn t u) : GoesOn s u where
  frame := h'.frame.trans h.frame
  zhdr := h'.zhdr.trans h.zhdr
  warn := h'.warn ∘ h.warn
  standing := by
    rcases h'.standing with ⟨hstatus, herr⟩ | hdone
    · rw [hstatus, herr]
      exact h.standing
    · exact .inr hdone

theorem GoesOn.params (h : GoesOn s t) : t.params = s.params := congrArg (·.params) h.frame

/-- An update of the fields that a running `INFLATE` works with. -/
theorem goesOn_update (s : State) (p o : Word) (ob : Memory 8) (l : Memory 4) (cl ll d : Option Table) (w : Work) :
    GoesOn s { s with
      brPos := p, olen := o, obuf := ob, lens := l, slotCL := cl, slotLL := ll, slotD := d, work := w } :=
  ⟨rfl, rfl, id, .inl ⟨rfl, rfl⟩⟩

/-- An operation of `INFLATE` that began in `s` goes on from there, or raises one of its kinds. -/
inductive Res.Goes (s : State) : Res α → Prop
  | ok {a : α} {t : State} (h : GoesOn s t) : Res.Goes s (.ok a t)
  | fail {k : Failure} {t : State} (h : GoesOn s t) (hk : InflateRaises s.params k) : Res.Goes s (.fail k t)

theorem Res.Goes.after (h : GoesOn s t) (hr : r.Goes t) : r.Goes s := by
  cases hr with
  | ok hu => exact .ok (h.trans hu)
  | fail hu hk => exact .fail (h.trans hu) (h.params ▸ hk)

theorem Res.Goes.andThen {f : α → State → Res β} (h : r.Goes s) (hf : ∀ a t, (f a t).Goes t) :
    (r.andThen f).Goes s := by
  cases h with
  | ok h => exact .after h (hf _ _)
  | fail h hk => exact .fail h hk

/-! ### The operations of `INFLATE` -/

theorem advance_goesOn (n : Nat) (s : State) : GoesOn s (advance n s) := goesOn_update ..

theorem readCode_goes (n : Nat) (s : State) : (readCode n s).Goes s := by
  rcases readCode_cases n s with ⟨-, h⟩ | ⟨-, h⟩ <;> rw [h]
  · exact .ok (advance_goesOn n s)
  · exact .fail (.refl s) trivial

theorem readReversed_goes (n : Nat) (s : State) : (readReversed n s).Goes s := by
  rcases readReversed_cases n s with ⟨-, h⟩ | ⟨-, h⟩ <;> rw [h]
  · exact .ok (advance_goesOn n s)
  · exact .fail (.refl s) trivial

theorem append_goes (b : Byte) (s : State) : (append b s).Goes s := by
  rcases append_cases b s with ⟨-, h⟩ | ⟨-, h⟩ <;> rw [h]
  · exact .fail (.refl s) trivial
  · exact .ok (goesOn_update ..)

theorem copyLoop_goes (n d : Nat) (s : State) : (copyLoop n d s).Goes s := by
  induction n generalizing s with
  | zero => exact .ok (.refl s)
  | succ n ih => exact (append_goes _ s).andThen fun _ t => ih t

theorem copy_goes (len d : Nat) (s : State) : (copy len d s).Goes s := by
  unfold copy
  split
  · exact .fail (.refl s) trivial
  · exact copyLoop_goes len d s

theorem copyStored_goes (n : Nat) (s : State) : (copyStored n s).Goes s := by
  induction n generalizing s with
  | zero => exact .ok (.refl s)
  | succ n ih => exact (readReversed_goes 8 s).andThen fun _ t => (append_goes _ t).andThen fun _ u => ih u

/-- Strict mode raises where the other sets the warning (R232). -/
theorem checkComplement_goes (len nlen : Nat) (s : State) : (checkComplement len nlen s).Goes s := by
  rcases checkComplement_cases len nlen s with ⟨-, h⟩ | ⟨-, hstrict, h⟩ | ⟨-, -, h⟩ <;> rw [h]
  · exact .ok (.refl s)
  · exact .fail (.refl s) hstrict
  · exact .ok ⟨rfl, rfl, fun _ => rfl, .inl ⟨rfl, rfl⟩⟩

theorem endBlock_goesOn (s : State) : GoesOn s (endBlock s) := by
  rcases endBlock_cases s with ⟨-, h⟩ | ⟨-, h⟩ <;> rw [h]
  · exact ⟨rfl, rfl, id, .inr ⟨rfl, rfl⟩⟩
  · exact goesOn_update ..

theorem storedBlock_goes (s : State) : (storedBlock s).Goes s :=
  (readCode_goes _ s).andThen fun _ s => (readReversed_goes 16 s).andThen fun _ s =>
    (readReversed_goes 16 s).andThen fun _ s => (checkComplement_goes _ _ s).andThen fun _ s =>
    (copyStored_goes _ s).andThen fun _ s => .ok (endBlock_goesOn s)

theorem setSlot_goesOn (k : Nat) (o : Option Table) (s : State) : GoesOn s (setSlot k o s) := by
  rw [setSlot_state]
  exact goesOn_update ..

theorem build_goes (k : Nat) (lens : List Nat) (s : State) : (build k lens s).Goes s := by
  rcases build_cases k lens s with ⟨_, -, h⟩ | ⟨-, h⟩ <;> rw [h]
  · exact .ok (setSlot_goesOn ..)
  · exact .fail (setSlot_goesOn ..) trivial

theorem dynamicHeader_goes (s : State) : (dynamicHeader s).Goes s := by
  rcases dynamicHeader_cases s with ⟨_, _, _, _, _, -, -, -, -, -, h⟩ | ⟨_, h⟩ | ⟨_, h⟩ <;> rw [h]
  · exact .ok (goesOn_update ..)
  · exact .fail (goesOn_update ..) trivial
  · exact .fail (advance_goesOn ..) trivial

theorem afterLengths_goes (s : State) : (afterLengths s).Goes s := by
  rcases afterLengths_cases s with ⟨-, h⟩ | ⟨-, _, _, -, -, h⟩ | ⟨-, _, _, h⟩ <;> rw [h]
  · exact .ok (.refl s)
  · exact .ok (goesOn_update ..)
  · exact .fail (goesOn_update ..) trivial

theorem emit_goes (v : Nibble) (r : Nat) (s : State) : (emit v r s).Goes s := by
  unfold emit
  split
  · exact .fail (.refl s) trivial
  · refine .after ?_ (afterLengths_goes _)
    rw [fillLens_state]
    exact goesOn_update ..

theorem zeroRepeat_goes (extra base : Nat) (s : State) : (zeroRepeat extra base s).Goes s :=
  (readReversed_goes extra s).andThen fun _ s => emit_goes 0 _ s

/-! ### The instructions of an `INFLATE` stream -/

/-- `INFLATE` raised one of its kinds after it had gone on from `s`, and `t` is what that left. -/
def Raised (s t : State) : Prop := ∃ k u, GoesOn s u ∧ InflateRaises s.params k ∧ t = raiseInflate k u

/-- `INFLATE` led from `s` to `t`: it went on, or raised one of its kinds. -/
def Led (s t : State) : Prop := GoesOn s t ∨ Raised s t

/-- An instruction of an `INFLATE` stream, by its outcome. -/
def Proceeds (s : State) (o : Out) : Prop := ∃ t, o = .next t ∧ Led s t

theorem GoesOn.proceeds {o : Out} (h : GoesOn s t) (ho : Proceeds t o) : Proceeds s o := by
  obtain ⟨v, hv, hgoes | ⟨k, u, hgoes, hk, he⟩⟩ := ho
  · exact ⟨v, hv, .inl (h.trans hgoes)⟩
  · exact ⟨v, hv, .inr ⟨k, u, h.trans hgoes, h.params ▸ hk, he⟩⟩

theorem settleInflate_proceeds {r : Res Unit} (h : r.Goes s) : Proceeds s (settleInflate r) := by
  cases h with
  | ok h => exact ⟨_, rfl, .inl h⟩
  | fail h hk => exact ⟨_, rfl, .inr ⟨_, _, h, hk, rfl⟩⟩

/-- A block, its `BFINAL` held first (R226). -/
theorem block_proceeds {f : Bool} {r : Res Unit} (h : r.Goes (setFinal f s)) : Proceeds s (settleInflate r) :=
  settleInflate_proceeds (.after (goesOn_update ..) h)

theorem execBlkFixed_proceeds (f : Bool) (s : State) : Proceeds s (execBlkFixed f s) :=
  block_proceeds ((build_goes 1 fixedLens _).andThen fun _ _ => .ok (goesOn_update ..))

theorem lengthSymbol_proceeds (extra base : Nat) (s : State) : Proceeds s (lengthSymbol extra base s) :=
  settleInflate_proceeds ((readReversed_goes extra s).andThen fun _ _ => .ok (goesOn_update ..))

theorem distanceSymbol_proceeds (extra base : Nat) (s : State) : Proceeds s (distanceSymbol extra base s) :=
  settleInflate_proceeds ((readReversed_goes extra s).andThen fun _ u =>
    (copy_goes _ _ u).andThen fun _ _ => .ok (goesOn_update ..))

theorem execClRep_proceeds (s : State) : Proceeds s (execClRep s) := by
  refine settleInflate_proceeds ?_
  split
  · exact .fail (.refl s) trivial
  · exact (readReversed_goes 2 s).andThen fun _ s => emit_goes _ _ s

theorem streamExec_proceeds {i : Instr} (hc : i.format ≠ .cmd) (hv : i.format ≠ .ftag) (s : State) :
    Proceeds s (streamExec i s) := by
  cases i with
  | blkStored => exact block_proceeds (storedBlock_goes _)
  | blkFixed f => exact execBlkFixed_proceeds f s
  | blkDynamic => exact block_proceeds (dynamicHeader_goes _)
  | lit v => exact settleInflate_proceeds (append_goes v s)
  | eob => exact settleInflate_proceeds (.ok (a := ()) (endBlock_goesOn s))
  | blkReserved => exact settleInflate_proceeds (.fail (k := .reservedBlockType) (.refl s) trivial)
  | llInvalid286 | llInvalid287 | llUnreachable | dInvalid =>
    exact settleInflate_proceeds (.fail (k := .invalidSymbol) (.refl s) trivial)
  | clLen v => exact settleInflate_proceeds (emit_goes v 1 s)
  | clRep => exact execClRep_proceeds s
  | clZrep3 | clZrep11 | clUnreachable => exact settleInflate_proceeds (zeroRepeat_goes _ _ s)
  | len257 | len258 | len259 | len260 | len261 | len262 | len263 | len264 | len265 | len266 | len267 | len268
  | len269 | len270 | len271 | len272 | len273 | len274 | len275 | len276 | len277 | len278 | len279 | len280
  | len281 | len282 | len283 | len284 | len285 =>
    dsimp only [streamExec]
    exact lengthSymbol_proceeds _ _ s
  | dist0 | dist1 | dist2 | dist3 | dist4 | dist5 | dist6 | dist7 | dist8 | dist9 | dist10 | dist11 | dist12
  | dist13 | dist14 | dist15 | dist16 | dist17 | dist18 | dist19 | dist20 | dist21 | dist22 | dist23 | dist24
  | dist25 | dist26 | dist27 | dist28 | dist29 =>
    dsimp only [streamExec]
    exact distanceSymbol_proceeds _ _ s
  | ftNone | ftSub | ftUp | ftAverage | ftPaeth | ftIllegal => exact absurd rfl hv
  | _ => exact absurd rfl hc

/-- A turn of `INFLATE`: its fetch raises for want of bits only (R413). -/
theorem streamTurn_proceeds {r : Res Instr} (hv : s.work.level ≠ .ftag) (hf : fetch s = some r) :
    Proceeds s (streamTurn r) := by
  cases r with
  | ok i t =>
    obtain ⟨hformat, hrunning, m, rfl⟩ := fetch_ok hf
    exact (advance_goesOn m s).proceeds (streamExec_proceeds (hformat ▸ hrunning) (hformat ▸ hv) _)
  | fail k t =>
    obtain ⟨hk, m, rfl⟩ := fetch_fail hf
    refine ⟨_, rfl, .inr ⟨k, _, advance_goesOn m s, ?_, rfl⟩⟩
    obtain rfl | rfl := hk <;> trivial

/-! ### Runs -/

/-- What every turn of a running command keeps, a run of it keeps. -/
theorem runStream_keeps {P : State → Prop} {n : Nat}
    (hturn : ∀ s r t, P s → fetch s = some r → streamTurn r = .next t → P t) (hs : P s)
    (ht : runStream n s = .next t) : P t := by
  induction n generalizing s with
  | zero =>
    cases ht
    exact hs
  | succ n ih =>
    cases hf : fetch s with
    | none =>
      simp only [runStream, hf] at ht
      cases ht
      exact hs
    | some r =>
      obtain ⟨u, hu⟩ := streamTurn_next r
      simp only [runStream, hf, hu] at ht
      exact ih (hturn s r u hs hf hu) ht

theorem Raised.atHost (h : Raised s t) : t.atHost := by
  obtain ⟨k, u, -, -, rfl⟩ := h
  exact raiseInflate_atHost k u

/-- A run of `INFLATE`: after a turn that raised there is no other. -/
theorem runStream_led {n : Nat} (hv : s.work.level ≠ .ftag) (ht : runStream n s = .next t) : Led s t := by
  refine (runStream_keeps (P := fun t => t.work.level ≠ .ftag ∧ Led s t) ?_ ⟨hv, .inl (.refl s)⟩ ht).2
  intro u r v ⟨hvu, hsu⟩ hf hr
  have hgoes : GoesOn s u := hsu.resolve_right fun hraised => by simp [fetch_none.2 hraised.atHost] at hf
  obtain ⟨_, hturn, hsv⟩ := hgoes.proceeds (streamTurn_proceeds hvu hf)
  obtain ⟨_, hw, hover | hon⟩ := streamTurn_resumes hf hvu <;> cases hr.symm.trans hturn <;> cases hr.symm.trans hw
  · exact ⟨hover ▸ nofun, hsv⟩
  · exact ⟨hon.level hvu, hsv⟩

/-! ### `INFLATE` -/

/-- `t` is how an `INFLATE` on `s` whose operand is in range ended (R36, R393, R421). -/
structure InflateEnds (s t : State) : Prop where
  frame : inflateHeld t = inflateHeld (enterInflate s)
  warn : s.warn = 1 → t.warn = 1
  done : t.status = .done → t.zhdr = s.ibuf.get 1 ++ s.ibuf.get 0
  fault : t.status = .fault → ∃ k, InflateRaises s.params k ∧ t.err = k.code

/-- A failure in a state `u` of the command. -/
theorem inflateEnds_of_fault {k : Failure} (h : AfterInflateFault k u t)
    (hu : inflateHeld u = inflateHeld (enterInflate s)) (hw : s.warn = 1 → u.warn = 1) (hk : InflateRaises s.params k) :
    InflateEnds s t := by
  have hstatus : t.status = .fault := congrArg (·.status) h.frame
  have hwarn : t.warn = u.warn := congrArg (·.warn) h.frame
  exact {
    frame := (congrArg inflateHeld h.frame).trans hu
    warn := fun hs => hwarn.trans (hw hs)
    done := fun hdone => by simp [hstatus] at hdone
    fault := fun _ => ⟨k, hk, congrArg (·.err) h.frame⟩ }

/-- The blocks after a readable header went on to the end, or raised. -/
theorem inflateEnds_of_blocks (h : Led (blocksBegin s) t) : InflateEnds s t := by
  rcases h with h | ⟨k, u, h, hk, rfl⟩
  · refine ⟨h.frame, h.warn, fun _ => h.zhdr, fun hfault => ?_⟩
    rcases h.standing with ⟨hstatus, -⟩ | ⟨hstatus, -⟩ <;> rw [hstatus] at hfault <;> cases hfault
  · exact inflateEnds_of_fault (raiseInflate_afterInflateFault k u) h.frame h.warn hk

/-- `INFLATE` of a stream that names no preset dictionary is the run of its blocks. -/
theorem exec_inflate_blocks (hp : s.params.wf = true) (hs : s.status ≠ .fault) (ha : s.arg0.toNat ≤ s.params.ibufCap)
    (h2 : 2 ≤ s.arg0.toNat) (hdict : (s.ibuf.get 1).getLsbD 5 = false) :
    exec .inflate s = runStream (8 * s.arg0.toNat) (blocksBegin s) := by
  have hstream : Streaming (enterInflate s) := ⟨enterInflate_cursorOk hp ha, rfl, (params_bounds hp).2⟩
  have hbits : remainingBits (enterInflate s) = 8 * s.arg0.toNat := rfl
  exact exec_inflate_of_header hs ha (zlibHeader_of_bytes hstream rfl (by omega) hdict)

theorem exec_inflate_ends (hp : s.params.wf = true) (hs : s.status ≠ .fault) (ha : s.arg0.toNat ≤ s.params.ibufCap)
    (ht : exec .inflate s = .next t) : InflateEnds s t := by
  obtain ⟨-, hshort, hpreset⟩ := inflateHeaderFailures s hp hs
  rcases Nat.lt_or_ge s.arg0.toNat 2 with h2 | h2
  · obtain ⟨_, hu, hfault⟩ := hshort h2
    cases ht.symm.trans hu
    exact inflateEnds_of_fault hfault rfl id trivial
  · cases hdict : (s.ibuf.get 1).getLsbD 5 with
    | true =>
      obtain ⟨_, hu, hfault⟩ := hpreset h2 ha hdict
      cases ht.symm.trans hu
      exact inflateEnds_of_fault hfault rfl id trivial
    | false =>
      rw [exec_inflate_blocks hp hs ha h2 hdict] at ht
      exact inflateEnds_of_blocks (runStream_led nofun ht)

end

/-- Settles O26: the fields that `INFLATE` does not write once it has entered, and the kind it raised. -/
theorem inflateDefines : Obligations.InflateDefines := by
  intro s t hp hs ha ht
  obtain ⟨hframe, hwarn, hdone, hfault⟩ := exec_inflate_ends hp hs ha ht
  have field {γ : Type} (f : State → γ) : f (inflateHeld t) = f (inflateHeld (enterInflate s)) := congrArg f hframe
  refine ⟨field (·.brLen), field (·.brOrder), field (·.htValid), hwarn, field (·.res0), field (·.rbuf),
    field (·.rlen), field (·.ibuf), field (·.params), field (·.pending), hdone, fun h => ?_⟩
  obtain ⟨k, hk, he⟩ := hfault h
  rw [he]
  exact ⟨hk.code_mem, hk.strict⟩

/-! ### No step raises a kind of the container (R412) -/

section
variable {s t : State}

/-- `ERR` holds no failure kind of the host's container (R412). -/
def BlockErr (s : State) : Prop := s.err ∉ [1, 2, 4]

/-- An outcome whose state holds no failure kind of the container. -/
def StaysBlockErr (o : Out) : Prop := ∃ t, o = .next t ∧ BlockErr t

theorem blockErr_raise {k : Failure} (hk : k.code ∉ [1, 2, 4]) (s : State) : BlockErr (raise k s) := hk

theorem blockErr_of_zero (h : t.err = 0) : BlockErr t := by
  rw [BlockErr, h]
  decide

/-- `INFLATE` leaves `ERR` or clears it, or raises one of its kinds. -/
theorem BlockErr.led (h : BlockErr s) (ht : Led s t) : BlockErr t := by
  rcases ht with hgoes | ⟨k, u, -, hk, rfl⟩
  · rcases hgoes.standing with ⟨-, he⟩ | ⟨-, he⟩
    · rwa [BlockErr, he]
    · exact blockErr_of_zero he
  · exact hk.not_container

/-- A row of `DEFILTER` does not raise. -/
theorem filterRow_blockErr (h : BlockErr s) (pred : Predictor) : StaysBlockErr (filterRow pred s) := by
  refine ⟨_, rfl, ?_⟩
  rw [reconRow_state, nextRow]
  split
  · exact h
  · exact blockErr_of_zero rfl

/-- A turn of `DEFILTER` raises `InvalidFilterType` only. -/
theorem streamTurn_defilter_blockErr {r : Res Instr} (h : BlockErr s) (hv : s.work.level = .ftag)
    (hf : fetch s = some r) : StaysBlockErr (streamTurn r) := by
  simp only [fetch, hv, Option.some.injEq] at hf
  subst hf
  simp only [fetchTag, streamTurn, decodeFilterTag]
  split
  case h_6 => exact ⟨_, rfl, blockErr_raise (by decide) _⟩
  all_goals exact filterRow_blockErr h _

theorem streamTurn_blockErr {r : Res Instr} (h : BlockErr s) (hf : fetch s = some r) :
    StaysBlockErr (streamTurn r) := by
  by_cases hv : s.work.level = .ftag
  · exact streamTurn_defilter_blockErr h hv hf
  · obtain ⟨t, ht, hled⟩ := streamTurn_proceeds hv hf
    exact ⟨t, ht, h.led hled⟩

theorem runStream_blockErr (h : BlockErr s) (n : Nat) : StaysBlockErr (runStream n s) := by
  obtain ⟨t, ht⟩ := runStream_next n s
  refine ⟨t, ht, runStream_keeps (fun u r v hu hf hr => ?_) h ht⟩
  obtain ⟨_, hw, hstays⟩ := streamTurn_blockErr hu hf
  cases hr.symm.trans hw
  exact hstays

/-! ### Commands and the host's turn (R412) -/

theorem command_blockErr {body : State → State} (h : BlockErr s) (hb : BlockErr (body s)) :
    StaysBlockErr (command s body) := by
  unfold command
  split
  · exact ⟨s, rfl, h⟩
  · exact ⟨_, rfl, hb⟩

theorem operandCheck_blockErr {bad : Prop} [Decidable bad] (h : BlockErr t) :
    BlockErr (if bad then raise .badCommand s else t) := by
  split
  · exact blockErr_raise (by decide) s
  · exact h

theorem settleRead_blockErr {v n : Nat} {r : Res Nat}
    (hr : (n ≤ remainingBits s ∧ r = .ok v (advance n s)) ∨ (remainingBits s < n ∧ r = .fail .insufficientBits s)) :
    BlockErr (settleRead r) := by
  rcases hr with ⟨-, rfl⟩ | ⟨-, rfl⟩
  · exact blockErr_of_zero rfl
  · exact blockErr_raise (by decide) _

theorem execHtBuild_blockErr (h : BlockErr s) : StaysBlockErr (execHtBuild s) := by
  refine command_blockErr h (operandCheck_blockErr (operandCheck_blockErr ?_))
  rcases build_cases s.arg0.toNat (lensFrom 0 s.arg1.toNat s) s with ⟨_, -, he⟩ | ⟨-, he⟩ <;> rw [he]
  · exact blockErr_of_zero rfl
  · exact blockErr_raise (by decide) _

theorem execHtDecode_blockErr (h : BlockErr s) : StaysBlockErr (execHtDecode s) := by
  refine command_blockErr h (operandCheck_blockErr ?_)
  split
  · rcases decodeOne_cases s.arg0.toNat s with ⟨_, _, _, -, -, -, -, he⟩ | ⟨_, he⟩ <;> rw [he]
    · exact blockErr_of_zero rfl
    · exact blockErr_raise (by decide) _
  · exact blockErr_raise (by decide) s

theorem execCrcCheck_blockErr (h : BlockErr s) : StaysBlockErr (execCrcCheck s) := by
  refine command_blockErr h (operandCheck_blockErr ?_)
  dsimp only
  split
  · exact blockErr_of_zero rfl
  · exact blockErr_raise (by decide) _

theorem execInflate_blockErr (h : BlockErr s) : StaysBlockErr (execInflate s) := by
  unfold execInflate
  split
  · exact ⟨s, rfl, h⟩
  split
  · exact ⟨_, rfl, blockErr_raise (by decide) s⟩
  rcases zlibHeader_cases (enterInflate s) with ⟨_, he⟩ | ⟨_, he⟩ | ⟨_, -, he⟩ <;> rw [he]
  · refine runStream_blockErr ?_ _
    exact h
  · exact ⟨_, rfl, blockErr_raise (by decide) _⟩
  · exact ⟨_, rfl, blockErr_raise (by decide) _⟩

theorem defilterCheck_some {k : Failure} (h : defilterCheck s = some k) : k = .badCommand ∨ k = .bufferOverflow := by
  unfold defilterCheck at h
  split at h
  · cases h
    exact .inl rfl
  split at h
  · cases h
    exact .inl rfl
  split at h <;> cases h
  exact .inr rfl

theorem execDefilter_blockErr (h : BlockErr s) : StaysBlockErr (execDefilter s) := by
  unfold execDefilter
  split
  · exact ⟨s, rfl, h⟩
  split
  next k hk =>
    obtain rfl | rfl := defilterCheck_some hk <;> exact ⟨_, rfl, blockErr_raise (by decide) s⟩
  split
  · exact ⟨_, rfl, blockErr_of_zero rfl⟩
  · exact runStream_blockErr (s := enterRows s) h _

theorem exec_blockErr {i : Instr} (hi : i.format = .cmd) (h : BlockErr s) : StaysBlockErr (exec i s) := by
  cases i with
  | nop => exact command_blockErr h (blockErr_of_zero rfl)
  | reset | clr => exact ⟨_, rfl, blockErr_of_zero rfl⟩
  | brInit | obSetlen | crcCompute =>
    dsimp only [exec, execBrInit, execObSetlen, execCrcCompute]
    exact command_blockErr h (operandCheck_blockErr (blockErr_of_zero rfl))
  | brRead =>
    dsimp only [exec, execBrRead]
    exact command_blockErr h (operandCheck_blockErr (settleRead_blockErr (readCode_cases _ s)))
  | brReadRev =>
    dsimp only [exec, execBrReadRev]
    exact command_blockErr h (operandCheck_blockErr (settleRead_blockErr (readReversed_cases _ s)))
  | brRemaining =>
    dsimp only [exec, execBrRemaining]
    exact command_blockErr h (blockErr_of_zero rfl)
  | htBuild => exact execHtBuild_blockErr h
  | htDecode => exact execHtDecode_blockErr h
  | inflate => exact execInflate_blockErr h
  | crcCheck => exact execCrcCheck_blockErr h
  | defilter => exact execDefilter_blockErr h
  | cmdIllegal => exact command_blockErr h (blockErr_raise (by decide) s)
  | _ => exact absurd hi nofun

theorem latchCommand_err (op : BitVec 8) (s : State) : (latchCommand op s).err = s.err := by
  unfold latchCommand
  split <;> rfl

/-- An access of the host leaves `ERR`, or clears it in a hardware reset. -/
theorem hostAccess_blockErr {a : HostAccess} (h : BlockErr s) (ht : hostAccess a s = .next t) : BlockErr t := by
  cases a with
  | writeReg index v =>
    cases ht
    rw [writeRegister_eq]
    exact h
  | readReg index =>
    cases ht
    exact h
  | writeCell sp a v =>
    rw [hostAccess] at ht
    split at ht <;> cases ht
    rw [writeSpace_state]
    exact h
  | readCell sp a =>
    rw [hostAccess] at ht
    split at ht <;> cases ht
    exact h
  | hardwareReset =>
    cases ht
    exact blockErr_of_zero rfl

theorem hostTurn_blockErr (h : BlockErr s) (ht : hostTurn s = .next t) : BlockErr t := by
  unfold hostTurn at ht
  split at ht
  · cases ht
    exact h
  · rename_i v rest _
    have hlatched : BlockErr (latchCommand (v.setWidth 8) { s with pending := rest }) := by
      rwa [BlockErr, latchCommand_err]
    obtain ⟨_, hu, hstays⟩ := exec_blockErr (decodeCommand_format (v.setWidth 8)) hlatched
    cases ht.symm.trans hu
    exact hstays
  · rename_i rest _ _
    exact hostAccess_blockErr (s := { s with pending := rest }) h ht

end

/-- Settles O9: a turn of the running command, or the host's turn. -/
theorem containerKindsNeverRaised : Obligations.ContainerKindsNeverRaised := by
  intro s t ht h
  cases hf : fetch s with
  | none => exact hostTurn_blockErr h (step_atHost (fetch_none.1 hf) ▸ ht)
  | some r =>
    obtain ⟨_, hu, hstays⟩ := streamTurn_blockErr h hf
    rw [step_of_fetch hf] at ht
    cases ht.symm.trans hu
    exact hstays

end Sys2Proof.Machine
